-- ==== Sys2Proof/Word.lean ====
section
/-! DEFINITION. The plain data types the model is written over: bytes, words, byte memories and sparse tables
in one canonical form. Nothing here carries behaviour; the operations stand in Sys2Proof/Machine/Bits.lean. -/

namespace Sys2Proof

/-- One byte, the device's smallest addressable unit (R14: every multi-byte value is little-endian). -/
abbrev Byte := BitVec 8

/-- A 32-bit register or element. -/
abbrev W32 := BitVec 32

/-- A 64-bit register, tick count or Belay value. -/
abbrev W64 := BitVec 64

/-- A macro-op packet of 256 bits (R48). -/
abbrev Packet := BitVec 256

/-- A byte memory: address and byte pairs, addresses strictly rising, no entry equal to what an unlisted address
reads as (the zero byte, log entry 2). -/
abbrev Mem := List Host.Cell

/-- A sparse table: key and value pairs, keys strictly rising, no entry equal to the table's default for its key. -/
abbrev Tab (α : Type) := List (Nat × α)

end Sys2Proof
end

