-- ==== Sys2Proof/Syntax.lean ====
section
/-! DEFINITION. The commands of the block: one constructor of Instr per row of spec/opcode_table.json, and the
operand types they carry. A command says WHICH event happens and what the outside world supplies with it (bytes read
from host memory, a received frame, a sensor reading); what the event does is in Sys2Proof/Machine. -/

namespace Sys2Proof

/-- The select banks of R427. -/
inductive Bank where
  | host | basecamp | od
  | hostEp
  | doorbell (t : Nat)
  deriving DecidableEq, Repr

/-- The agents whose writes are acknowledged one by one (R23): a macro-op of a Crag, a Summit's window stores, the
host's BAR2 writes, Basecamp's own. -/
inductive Agent where
  | op (crag n : Nat)
  | summit (s : Nat)
  | host
  | basecamp
  deriving DecidableEq, Repr

/-- A fault message (R500, Table 17.1); the reserved bits 31:30 are not held. -/
structure FaultMsg where
  src  : BitVec 16
  kind : BitVec 8
  cls  : BitVec 2
  ten  : BitVec 4
  addr : BitVec 48
  it   : BitVec 48
  deriving DecidableEq, Repr

/-- A Traverse or Rope frame: the header fields of Table 15.7, the payload blocks and the CRC-32C of the trailer (R458). -/
structure Frame where
  typ     : Nat
  len     : Nat
  poison  : BitVec 2
  srcTen  : Nat
  loc     : Bool
  dst     : BitVec 16
  src     : BitVec 16
  route   : BitVec 48
  nhops   : Nat
  hop     : Nat
  tag     : BitVec 12
  status  : Nat
  addr    : BitVec 48
  first   : Nat
  nbytes  : Nat
  part    : Bool
  inc     : BitVec 32
  lseq    : BitVec 12
  payload : List Byte
  crc     : BitVec 32
  deriving DecidableEq, Repr

/-- What a LINK frame carries beside the sender's device ID (Table 15.8): credits by virtual channel in bytes, the last frame that is
acknowledged, and the first frame that is asked for again. The spec does not lay them out in the payload (log entry 131). -/
structure LinkInfo where
  credits : List (Nat × Nat)
  ack     : Option (BitVec 12)
  replay  : Option (BitVec 12)
  deriving DecidableEq, Repr

/-- An access of a Summit's load or store instruction: width in bytes and sign extension of a load. -/
inductive WindowAcc where
  | load (width : Nat) (signed : Bool) (rd : Nat)
  | store (width : Nat) (value : W64)
  deriving DecidableEq, Repr

/-- A completion status of a PCIe read or translation. -/
inductive CplStatus where
  | ok
  | error
  deriving DecidableEq, Repr

/-- An ATS translation answer (R112, R113). -/
inductive AtsAnswer where
  | present
  | notPresent
  deriving DecidableEq, Repr

/-- One 20-byte view of a PTP Announce: what the best master clock algorithm of the default profile compares. -/
structure PtpMaster where
  priority1 : Nat
  clockClass : Nat
  accuracy  : Nat
  variance  : Nat
  priority2 : Nat
  identity  : W64
  steps     : Nat
  deriving DecidableEq, Repr

/-- ICMPv6 messages the management port answers or applies (R419). -/
inductive Icmp6 where
  | echoRequest (ident seq : Nat) (data : List Byte)
  | echoReply (ident seq : Nat) (data : List Byte)
  | neighbourSolicit (target : BitVec 128)
  | neighbourAdvert (target : BitVec 128) (mac : BitVec 48)
  | routerAdvert (pfx : BitVec 64) (autonomous : Bool)
  | other (typ : Nat)
  deriving DecidableEq, Repr

/-- JTAG operations (R565): the TAP reset, an instruction loaded, a data register scanned. -/
inductive JtagIr where
  | bypass | idcode | samplePreload | extest | extestPulse | extestTrain
  | other (code : Nat)
  deriving DecidableEq, Repr

inductive JtagOp where
  | reset
  | loadIr (ir : JtagIr)
  | scanDr (bits : List Bool)
  deriving DecidableEq, Repr

/-- A management datagram (R419): the message bytes and the 32-byte tag, from an address and port to a port of the device. -/
structure Datagram where
  msg  : List Byte
  tag  : List Byte
  addr : BitVec 128
  port : BitVec 16
  dport : BitVec 16
  deriving DecidableEq, Repr

/-- What the hardware found during a bring-up (R544 to R546): the inputs that bring-up takes from the physical part. Crags and
spares are physical, die * 256 + index; a bank is die * 1024 + group * 32 + position. RST_N is high at the end of phase 2, and the strap
levels count after POR alone (R526, R558). -/
structure BringUpIn where
  rstHigh        : Bool
  seat           : Bool
  testMode       : Bool
  railsOk        : Bool
  pllOk          : Bool
  ridgeOk        : Bool
  fatalInInit    : Bool
  failedCrags    : List Nat
  failedSpares   : List Nat
  failedSummits  : List Nat
  failedChannels : List Nat
  failedBanks    : List Nat
  slotAValid     : Bool
  slotBValid     : Bool
  deriving DecidableEq, Repr

/-- What a Crag self-test under R488 found: failing physical Crags, 256 × die + index, and failing Summits. -/
structure TestResult where
  crags   : List Nat
  summits : List Nat
  deriving DecidableEq, Repr

/-- Which lane group of a Ridge link a lane belongs to (Table 17.2, Table 17.3): the Crag die, the link, the group,
the direction. -/
structure RidgeLane where
  die   : Nat
  link  : Nat
  group : Nat
  dir   : Nat
  deriving DecidableEq, Repr

/-- The commands, in the order of spec/opcode_table.json. -/
inductive Instr where
  -- the Summit and its packets
  | issueStore (summit dw : Nat) (v : W64) (rvc : Bool)
  | tmaskStore (summit mask dw : Nat) (v : W64) (rvc : Bool)
  | packetArrival (crag : Nat)
  | creditReturn (crag : Nat)
  | sumLoad (summit n rd : Nat) (rvc : Bool)
  | summaryContributionArrival (crag : Nat)
  | summitInstruction (summit : Nat)
  | windowLoadStore (summit : Nat) (va : W64) (acc : WindowAcc) (rvc : Bool)
  | summitFence (summit : Nat)
  | ebreak (summit : Nat) (rvc : Bool)
  -- the Crag front end and shared op events
  | dispatch (crag : Nat)
  | summary (crag n : Nat)
  | macroOpComplete (crag n : Nat)
  | queueWaitEnd (crag q : Nat)
  | acknowledgement (who : Agent)
  -- streams
  | streamRd (crag n : Nat)
  | streamWr (crag n : Nat)
  | streamReadReturn (crag n : Nat)
  | pageRequestResponse (crag ch : Nat) (ok : Bool)
  | priTimeout (crag ch : Nat)
  | streamMcast (crag n : Nat)
  | mcastFetchStart (group : Nat)
  | streamRegion (crag n : Nat)
  | streamClose (crag n : Nat)
  | qdeadlock (crag : Nat)
  | late (crag : Nat)
  -- the fabric and the Gather-and-Merge Engine
  | mma (crag n : Nat)
  | sring (crag n : Nat)
  | sringArg (crag n : Nat)
  | gmergePack (crag n : Nat)
  | gmergeUnpack (crag n : Nat)
  | gmergePack24 (crag n : Nat)
  | smmaA (crag n : Nat)
  | smmaW (crag n : Nat)
  | smmaAw (crag n : Nat)
  | smmaPrune (crag n : Nat)
  -- the Vector Engine
  | vectorChainStart (crag n : Nat)
  | vopFlags (crag n : Nat)
  -- gather and sampling
  -- ext is the memory outside that a descriptor with ASP 1 or 2 names, as its owners hold it: the op asks them for each block it reads,
  -- and sees their answers alone (HOST_READ_COMPLETION, READ_RESP; log entry 133)
  | gatherCsr (crag n : Nat) (ext : Mem)
  | gatherCoo (crag n : Nat) (ext : Mem)
  | gatherSeg (crag n : Nat) (ext : Mem)
  | sampleU (crag n : Nat) (ext : Mem)
  | sampleW (crag n : Nat) (ext : Mem)
  -- embedding tables
  | pool (crag n : Nat) (ext : Mem)
  | poolPrefetch (crag n : Nat)
  | eupdWrite (crag n : Nat)
  | eupdAdd (crag n : Nat)
  | eupdSgd (crag n : Nat)
  | eupdAdagrad (crag n : Nat)
  | eupdAdam (crag n : Nat)
  | eupdMigrate (crag n : Nat)
  | updateUnitApply (u : Nat)
  | migrateClaimAck (u : Nat) (row : Nat)
  | migrateCopyAck (u : Nat) (row : Nat)
  | migrateSwitchAck (u : Nat) (row : Nat)
  -- Belays and tasks
  | belayPost (crag n : Nat)
  | belayWait (crag n : Nat)
  | belayPostApply (belay : Nat)
  | belaytmo (crag n : Nat)
  | taskTake (crag n : Nat)
  | taskPut (crag n : Nat)
  | taskDone (crag n : Nat)
  | taskGrant (taskSeq : Nat)
  | delayRelease (taskSeq : Nat)
  | bivouacEnter (crag : Nat)
  -- twin marks
  | markEpoch (crag n : Nat)
  | markDigest (crag n : Nat)
  -- resets and the Summit window
  | cragReset (bank : Bank)
  | summitRun (bank : Bank)
  | summitHalt (bank : Bank)
  | summitReset (bank : Bank)
  | summitLoad (bank : Bank)
  | summitLoadDone (summit : Nat)
  | summitPartyWrite (bank : Bank) (v : W32)
  -- registers
  | selectWrite (bank : Bank) (sel : Nat) (v : W32)
  | bar0LowHalfWrite (bank : Bank) (off : Nat) (v : W32)
  | registerWrite (bank : Bank) (off width : Nat) (v : W64)
  | belayPostRegister (bank : Bank) (v : W64)
  | belaySet (bank : Bank) (v : W64)
  -- the cache
  | cacheRead (pa cls ten : Nat) (bypass : Bool)
  | cacheWrite (pa cls ten : Nat) (bypass : Bool) (data : List Byte) (poison : Bool)
  | cacheFillDone (slice line sector : Nat)
  | clean (bank : Bank) (byWay : Bool) (way : Nat)
  | invalidate (bank : Bank) (byWay : Bool) (way : Nat)
  | cleanInvalidate (bank : Bank) (byWay : Bool) (way : Nat)
  | zeroLine (bank : Bank) (byWay : Bool) (way : Nat)
  | cmoDone (slice : Nat)
  | wayenWrite (bank : Bank) (v : W32)
  | waypwrWrite (bank : Bank) (v : W32)
  | waySweepDone (slice way : Nat)
  | sliceEnable (bank : Bank)
  | sliceDisable (bank : Bank) (force : Bool)
  | sliceSweepDone (slice : Nat)
  | bankSpare (slice group pos : Nat)
  -- external memory
  | dramRead (ch x : Nat) (err : List (Nat × Byte))
  | rowRemapped (ch : Nat)
  | patrolScrub (ch x : Nat) (err : List (Nat × Byte))
  | retrain (bank : Bank)
  | emergencyRetrain (ch : Nat)
  | retrainDone (ch : Nat) (ok : Bool)
  | offline (bank : Bank)
  | online (bank : Bank)
  | ppr (bank : Bank)
  | pprDone (ch entry : Nat) (ok : Bool)
  | mark (bank : Bank) (rank dev : Nat)
  | unmark (bank : Bank) (rank : Nat)
  | tgGo (bank : Bank) (ctrl : W32)
  | tgDone (ch : Nat) (flips : List (Nat × Byte))
  | ridgeLaneFail (lane : RidgeLane)
  -- Installation Time
  | ref1ppsEdge (present : Bool) (offsetNs : Int)
  | ptpSync (master : W64) (domain : Nat) (twoStep : Bool) (t1 t2 : Nat)
  | ptpFollowUp (master : W64) (t1 : Nat)
  | ptpDelayResp (master : W64) (t4 : Nat)
  | ptpAnnounce (domain : Nat) (m : PtpMaster)
  | itSourceLost
  | itExpired
  | timeExchangeTimer
  | timePpsOut
  | step (bank : Bank)
  | itrefsecondsWrite (bank : Bank) (v : W64)
  | itsourceWrite (bank : Bank) (v : Nat)
  | sysclkLoss
  | sysclkReturn
  | eventEntryWrite (bank : Bank) (v : BitVec 256)
  | eventFire (entry : Nat)
  -- tenancies
  | tenancyEnable (bank : Bank)
  | tenancyDisable (bank : Bank)
  | tenancyReset (bank : Bank)
  | xlateInval (bank : Bank)
  | energyMeasure (packageUj : Nat) (shares : List (Nat × Nat))
  -- the package power in mW at k = 2 to 8, averaged over the millisecond, without and with the loans of R306 (log entry 136)
  | powerLimitRequest (powers lent : List Nat)
  -- the object dictionary and configuration
  | mbGo (bank : Bank)
  | mgmtDatagram (d : Datagram)
  | commitDone (ok : Bool)
  | probationEnd
  | cfgTripleDue
  | cfgDecisionDue
  | faultClearValid (bank : Bank)
  | faultClearFatal (bank : Bank)
  | fwTrialExpiry
  -- the host port
  | bar2Read (off n : Nat)
  | bar2Write (off : Nat) (data : List Byte) (poisoned : Bool)
  | dbRing (t : Nat) (v : W64)
  | hostReadCompletion (crag n : Nat) (st : CplStatus) (data : List Byte) (poisoned : Bool)
  | completionTimeout (crag n : Nat)
  | atsInvalidation (pasid page : Nat)
  | pcieLinkDown
  | perstAssert
  | perstDeassert
  | rstN
  -- Traverse
  | write (port : Nat) (f : Frame)
  | read (port : Nat) (f : Frame)
  | post (port : Nat) (f : Frame)
  | readResp (port : Nat) (f : Frame)
  | writeAck (port : Nat) (f : Frame)
  | postAck (port : Nat) (f : Frame)
  | time (port : Nat) (f : Frame)
  | link (port : Nat) (f : Frame)
  | travTimeout (tag : BitVec 12)
  | travLaneFail (port lane : Nat)
  -- the Rope
  | ropeLaneFail (lane : Nat)
  | ropeLinkUp (mode seat : Nat) (dev : BitVec 16)
  | lease (f : Frame)
  | leaseSend
  | leaseTimeout
  | witnessWaitExpiry
  | cfgTriple (f : Frame)
  | cfgDecision (f : Frame)
  | cfgConfirmed (f : Frame)
  | agree (f : Frame)
  | stopTen (f : Frame)
  | selftest (f : Frame)
  | selftestResultTimeout (t : Nat)
  | resetTen (f : Frame)
  | ctrlDetach (f : Frame)
  | digest (f : Frame)
  | fwdHostRegister (f : Frame)
  | fwdBar2 (f : Frame)
  | fwdStreamData (f : Frame)
  | fwdOdFragment (f : Frame)
  | fwdTraverseRequest (f : Frame)
  | copy (f : Frame)
  | copyDone
  -- faults and spares
  | faultMessage (detected : Option FaultMsg)
  | logRecordClose
  | sentinelWatchdogMiss
  | cragSpared (crag : Nat) (failedSpares : List Nat)
  -- power, reset, bring-up
  | vddCoreDip
  -- how long VDD_CORE has stayed at or above 0.865 V, in microseconds
  | dipRecovery (us : W32)
  | railWarnEnd (monitor : Nat) (us : W32)
  | supplyFail (monitor : Nat) (mv : BitVec 16)
  | por
  | thermalRead (readings : List Int)
  | tripHoldoffExpiry
  | bringUp (b : BringUpIn)
  | retrainDue (ch : Nat) (tempC : Int)
  | itRegisterLowRead (off : Nat)
  | atsTranslationResponse (crag ch : Nat) (a : AtsAnswer)
  | delayReqSend (t3 : Nat)
  | icmpv6Message (m : Icmp6)
  | jtagTapOperation (op : JtagOp)
  | smbusTransaction (isRead : Bool) (data : List Byte)
  | pmbusAlert
  | basecampReturn
  | selfTestComplete (t : Nat) (r : TestResult)
  | travLinkUp (port : Nat)
  | ropeRetrainDone
  | pcieLinkUp (width speed : Nat)
  | configurationRequest (isWrite : Bool) (off : Nat) (data : List Byte) (len : Nat)
  deriving DecidableEq, Repr

end Sys2Proof
end

