-- ==== Sys2Proof/Machine/Bits.lean ====
section
/-! DEFINITION. Bit fields, little-endian bytes, and the operations on sparse tables and byte memories. A table and a
memory have one canonical form, and every operation here keeps it (Sys2Proof/Laws/Tables.lean). -/

namespace Sys2Proof

/-! ## Sparse tables -/

/-- The value of key k: the listed one, else the default for k. -/
def Tab.get {α : Type} (d : Nat → α) : Tab α → Nat → α
  | [], k => d k
  | (j, v) :: t, k => if j = k then v else Tab.get d t k

/-- Puts a pair at the head unless its value is the default. -/
def Tab.cons {α : Type} [DecidableEq α] (d : Nat → α) (k : Nat) (v : α) (t : Tab α) : Tab α :=
  if v = d k then t else (k, v) :: t

/-- Lists a pair at its place among the keys, in place of one already there. -/
def Tab.put {α : Type} : Tab α → Nat → α → Tab α
  | [], k, v => [(k, v)]
  | (j, w) :: t, k, v =>
    if k < j then (k, v) :: (j, w) :: t
    else if k = j then (k, v) :: t
    else (j, w) :: Tab.put t k v

/-- Writes key k. Keys stay strictly rising and no default is listed. -/
def Tab.set {α : Type} [DecidableEq α] (d : Nat → α) (t : Tab α) (k : Nat) (v : α) : Tab α :=
  if v = d k then t.filter fun e => e.1 ≠ k else Tab.put t k v

/-- Every listed key is above b, keys rise strictly, no listed value is its default. -/
def Tab.above {α : Type} [DecidableEq α] (d : Nat → α) : Nat → Tab α → Bool
  | _, [] => true
  | b, (j, v) :: t => decide (b ≤ j) && !decide (v = d j) && Tab.above d (j + 1) t

/-- The canonical form. -/
def Tab.wf {α : Type} [DecidableEq α] (d : Nat → α) (t : Tab α) : Bool := Tab.above d 0 t

/-- Drops the keys a test names. -/
def Tab.drop {α : Type} (p : Nat → Bool) (t : Tab α) : Tab α := t.filter fun e => !p e.1

/-- Every listed value changed by a function that keeps the default; values that become the default are not listed. -/
def Tab.mapV {α : Type} [DecidableEq α] (d : Nat → α) (f : Nat → α → α) : Tab α → Tab α
  | [] => []
  | (j, v) :: t => Tab.cons d j (f j v) (Tab.mapV d f t)

/-- Default of a table of numbers. -/
def zeroD : Nat → Nat := fun _ => 0
/-- Default of a table of booleans. -/
def falseD : Nat → Bool := fun _ => false
/-- Default of a table of bit vectors. -/
def bvD (w : Nat) : Nat → BitVec w := fun _ => 0

/-! ## Byte memories -/

/-- What an unlisted address reads as: the zero byte (log entry 2). -/
def memD : Nat → Byte := fun _ => 0

def Mem.get (m : Mem) (a : Nat) : Byte := Tab.get memD m a
def Mem.set (m : Mem) (a : Nat) (b : Byte) : Mem := Tab.set memD m a b

/-- n bytes from address a, lowest first. -/
def Mem.read (m : Mem) (a n : Nat) : List Byte := (List.range n).map fun i => Mem.get m (a + i)

/-- Writes bytes from address a upward. -/
def Mem.write (m : Mem) : Nat → List Byte → Mem
  | _, [] => m
  | a, b :: bs => Mem.write (Mem.set m a b) (a + 1) bs

/-- Canonical form of a memory. -/
def Mem.wf (m : Mem) : Bool := Tab.wf memD m

/-! ## Numbers and bytes -/

/-- The number a little-endian byte list spells (R14). -/
def leNat : List Byte → Nat
  | [] => 0
  | b :: bs => b.toNat + 256 * leNat bs

/-- The n low bytes of a number, little-endian. -/
def natLe : Nat → Nat → List Byte
  | 0, _ => []
  | n + 1, v => BitVec.ofNat 8 v :: natLe n (v / 256)

/-- Bits lo+w-1 to lo of a number. -/
def bitsN (v lo w : Nat) : Nat := v / 2 ^ lo % 2 ^ w

/-- Bits lo+w-1 to lo of a bit vector. -/
def fld {n : Nat} (p : BitVec n) (lo w : Nat) : Nat := bitsN p.toNat lo w

def bit {n : Nat} (p : BitVec n) (i : Nat) : Bool := p.getLsbD i

/-- A number with bits lo+w-1 to lo replaced by v. -/
def setBits (x lo w v : Nat) : Nat := x - bitsN x lo w * 2 ^ lo + v % 2 ^ w * 2 ^ lo

def setFld {n : Nat} (p : BitVec n) (lo w v : Nat) : BitVec n := BitVec.ofNat n (setBits p.toNat lo w v)

def setBit {n : Nat} (p : BitVec n) (i : Nat) (b : Bool) : BitVec n := setFld p i 1 (if b then 1 else 0)

/-- The bit of a boolean. -/
def b2n (b : Bool) : Nat := if b then 1 else 0

/-- Fields packed by their least bit. -/
def flds (l : List (Nat × Nat)) : Nat := (l.map fun e => e.2 * 2 ^ e.1).sum

/-- Rounding up of a quotient; 0 when the divisor is 0. -/
def ceilDiv (a b : Nat) : Nat := (a + b - 1) / b

/-- w-bit two's complement value of a number. -/
def toSigned (w v : Nat) : Int :=
  let u := v % 2 ^ w
  if 2 * u < 2 ^ w then (u : Int) else (u : Int) - (2 ^ w : Nat)

/-- The w-bit two's complement code of an integer. -/
def ofInt (w : Nat) (i : Int) : Nat := (i % ((2 ^ w : Nat) : Int)).toNat

/-- Number of bits set among the low n bits. -/
def popN (v : Nat) : Nat → Nat
  | 0 => 0
  | n + 1 => v / 2 ^ n % 2 + popN v n

/-- A counter that counts modulo its width. -/
def bump {n : Nat} (x : BitVec n) (k : Nat) : BitVec n := BitVec.ofNat n (x.toNat + k)

/-- A counter that saturates at its greatest value. -/
def bumpSat {n : Nat} (x : BitVec n) (k : Nat) : BitVec n := BitVec.ofNat n (min (x.toNat + k) (2 ^ n - 1))

/-- Lists cut into pieces of n; structural on a fuel that the list's own length gives. -/
def chunksAux {α : Type} (n : Nat) : Nat → List α → List (List α)
  | 0, _ => []
  | _, [] => []
  | f + 1, l => l.take n :: chunksAux n f (l.drop n)

def chunks {α : Type} (n : Nat) (l : List α) : List (List α) := chunksAux n l.length l

/-- A list padded on the right to at least n entries. -/
def padTo {α : Type} (n : Nat) (x : α) (l : List α) : List α := l ++ List.replicate (n - l.length) x

/-- Entry i replaced. -/
def setAt {α : Type} (l : List α) (i : Nat) (x : α) : List α := l.set i x

/-- The bytes of w bits-wide elements packed with the lowest element in the lowest bits (R126). -/
def packBits (w : Nat) (es : List Nat) : Nat :=
  (es.foldr (fun e acc => e % 2 ^ w + 2 ^ w * acc) 0)

/-- Conversion of a list of bits, lowest first. -/
def bitsToNat : List Bool → Nat
  | [] => 0
  | b :: bs => b2n b + 2 * bitsToNat bs

end Sys2Proof
end

