-- ==== Sys2Proof/Machine/Burst.lean ====
section
/-! DEFINITION. The Burst Code of R351 and R352: a systematic RS(80,64) over GF(2^8) on bytes held as numbers, its encoder
and its decoder of errors, or of the sixteen erasures of a marked device. -/

namespace Sys2Proof.Machine

/-- Multiplication by alpha = 2 modulo x^8 + x^4 + x^3 + x^2 + 1. -/
def gfX (a : Nat) : Nat := if a < 128 then 2 * a else (2 * a) ^^^ 0x11D

/-- Product in GF(2^8), the low n bits of b. -/
def gfMulAux : Nat → Nat → Nat → Nat
  | 0, _, _ => 0
  | n + 1, a, b => (if b % 2 = 1 then a else 0) ^^^ gfMulAux n (gfX a) (b / 2)

def gfMul (a b : Nat) : Nat := gfMulAux 8 a b

def gfPow (a : Nat) : Nat → Nat
  | 0 => 1
  | n + 1 => gfMul a (gfPow a n)

/-- The inverse a^254; 0 for 0. -/
def gfInv (a : Nat) : Nat :=
  let a2 := gfMul a a
  let a4 := gfMul a2 a2
  let a8 := gfMul a4 a4
  let a16 := gfMul a8 a8
  let a32 := gfMul a16 a16
  let a64 := gfMul a32 a32
  let a128 := gfMul a64 a64
  gfMul a2 (gfMul a4 (gfMul a8 (gfMul a16 (gfMul a32 (gfMul a64 a128)))))

/-- alpha^n. -/
def gfAlpha (n : Nat) : Nat := gfPow 2 (n % 255)

/-- Value of a polynomial, lowest coefficient first. -/
def gfEval (x : Nat) : List Nat → Nat
  | [] => 0
  | c :: cs => c ^^^ gfMul x (gfEval x cs)

def gfAdd : List Nat → List Nat → List Nat
  | [], q => q
  | p, [] => p
  | a :: p, b :: q => (a ^^^ b) :: gfAdd p q

def gfScale (k : Nat) (p : List Nat) : List Nat := p.map (gfMul k)

def gfMulPoly : List Nat → List Nat → List Nat
  | [], _ => []
  | a :: p, q => gfAdd (gfScale a q) (0 :: gfMulPoly p q)

/-- Generator (x - a^0) ... (x - a^15), lowest coefficient first. -/
def rsGen : List Nat := (List.range 16).foldl (fun g i => gfMulPoly g [gfAlpha i, 1]) [1]

/-- One step of the division by the generator: the remainder register, highest coefficient first. -/
def rsStep (r : List Nat) (d : Nat) : List Nat :=
  let fb := d ^^^ r.headD 0
  gfAdd (r.drop 1 ++ [0]) (gfScale fb (rsGen.take 16).reverse)

/-- The 80 symbols of 64 data symbols: the data and the remainder (R351). -/
def rsEncode (data : List Nat) : List Nat := data ++ data.foldl rsStep (List.replicate 16 0)

/-- Syndrome i: the received polynomial at a^i; symbol j has power 79 - j. -/
def rsSyndromes (r : List Nat) : List Nat := (List.range 16).map fun i => gfEval (gfAlpha i) r.reverse

/-- The symbol positions an error locator's roots name. -/
def rsRoots (loc : List Nat) : List Nat :=
  (List.range 80).filter fun j => gfEval (gfAlpha (255 - (79 - j))) loc = 0

/-- Error locator by Berlekamp and Massey: n syndromes done, current and previous locators, length, gap, previous
discrepancy. -/
def rsBm (syn : List Nat) : Nat → Nat → List Nat → List Nat → Nat → Nat → Nat → List Nat × Nat
  | 0, _, c, _, l, _, _ => (c, l)
  | f + 1, n, c, b, l, m, d0 =>
    let d := (List.range (l + 1)).foldl (fun a i => a ^^^ gfMul (c.getD i 0) (syn.getD (n - i) 0)) 0
    if d = 0 then rsBm syn f (n + 1) c b l (m + 1) d0
    else
      let t := gfAdd c (List.replicate m 0 ++ gfScale (gfMul d (gfInv d0)) b)
      if 2 * l ≤ n then rsBm syn f (n + 1) t c (n + 1 - l) 1 d
      else rsBm syn f (n + 1) t b l (m + 1) d0

/-- Formal derivative in characteristic 2, lowest coefficient first. -/
def gfDeriv (p : List Nat) : List Nat := (p.drop 1).mapIdx fun i c => if i % 2 = 0 then c else 0

/-- Error values at the positions of a locator (Forney, first root a^0). -/
def rsValues (syn loc : List Nat) (ps : List Nat) : List (Nat × Nat) :=
  let om := (gfMulPoly syn loc).take 16
  ps.map fun j =>
    let xi := gfAlpha (255 - (79 - j))
    (j, gfMul (gfAlpha (79 - j)) (gfMul (gfEval xi om) (gfInv (gfEval xi (gfDeriv loc)))))

/-- Symbols with corrections applied. -/
def rsFix (r : List Nat) (vs : List (Nat × Nat)) : List Nat :=
  r.mapIdx fun j c => vs.foldl (fun a e => if e.1 = j then a ^^^ e.2 else a) c

/-- Decoding of one codeword: the corrected symbols and the corrected positions, or none where not correctable. The
erasures, when any, are the sixteen symbols of one device and leave no room for errors (R352). -/
def rsDecode (r : List Nat) (erased : List Nat) : Option (List Nat × List Nat) :=
  let syn := rsSyndromes r
  if syn.all (· = 0) then some (r, [])
  else
    let loc := if erased = [] then rsBm syn 16 0 [1] [1] 0 1 1
      else (erased.foldl (fun g j => gfMulPoly g [1, gfAlpha (79 - j)]) [1], erased.length)
    let ps := if erased = [] then rsRoots loc.1 else erased
    if erased = [] ∧ (8 < loc.2 ∨ ps.length ≠ loc.2) then none
    else
      let vs := (rsValues syn loc.1 ps).filter fun e => e.2 ≠ 0
      let fixed := rsFix r vs
      if (rsSyndromes fixed).all (· = 0) then some (fixed, vs.map (·.1)) else none

end Sys2Proof.Machine
end

