-- ==== Sys2Proof/Config.lean ====
section
/-! DEFINITION. What one implementation fixes and the spec leaves open. Every constant here is opaque: nothing in Lean
can evaluate it, so a theorem about it holds whatever it is. Each is named in a log entry. -/

namespace Sys2Proof.Config

/-- The n-th free value of a run (log entry 4): the value of a result the spec calls undefined or does not state. -/
opaque freeValue : Nat → W64

/-- Whether a signature verifies under Plovrin's public key in the boot ROM (R541), from the signed bytes and the
signature: the spec does not give the key (log entry 9). -/
opaque signatureOk : List Byte → List Byte → Bool

/-- The byte string that the digest of a configuration set is taken over (R441, Table 14.11): the spec gives the order
of the objects and the parts of each, not the widths of the parts (log entry 10). -/
opaque cfgSerial : List (Nat × Nat × Nat × Nat) → List Byte

/-- FirmwareVersion of an image body (Table 14.10: "per image"), from its VERSION field (log entry 9). -/
opaque bootVersion : W32

/-- MIN_VERSION of an image that a slot holds from manufacture (R541, R543; log entry 9). -/
opaque bootMinVersion : W32

/-- Whether a write of flash needs a new block: a piece of FwImage or a commit, by its tick (R523; log entry 154). -/
opaque newBlock : W64 → Bool

/-- The tag an undefined way reads after it is powered on under WPM=S (R330; log entry 11): tag and state bits of the
line of a set and way. -/
opaque wakeTag : Nat → Nat × List (Bool × Bool × Bool)

/-- The data byte of such an undefined line (R330; log entry 11). -/
opaque wakeByte : Nat → Byte

/-- Byte of DRAM whose contents the spec calls undefined: after POR (Table 18.6) and where SpreadFraction moved a byte
between spaces (R346; log entry 12). -/
opaque lostByte : Nat → Byte

/-- Byte that the traffic generator writes or expects for a pattern whose layout the spec does not give (Table 11.12; log entry
32): pattern, seed, channel byte address. -/
opaque tgByte : Nat → Nat → Nat → Byte

/-- Block number of the i-th access of random addressing (Table 11.12; log entry 32): seed, range length, i. -/
opaque tgOrder : Nat → Nat → Nat → Nat

/-- What a byte of PCIe configuration space reads, from its offset and what was last written there: the spec gives vendor, device
and class only (R442; log entry 36). -/
opaque cfgRead : Nat → Byte → Byte

/-- Log2 of the BAR2 size above 30 that the configuration space selects, before reduction (R442; log entry 36). -/
opaque barSize : List (Nat × Byte) → Nat

/-- Whether the configuration space holds the function in D3hot (R442; log entry 36). -/
opaque inD3hot : List (Nat × Byte) → Bool

/-- Whether ITAsym is added to a measured offset, or subtracted: the spec does not say (R374, R460; log entry 38). -/
opaque asymAdds : Bool

/-- PT_STATUS.WIDTH of a link of width 16, which the field's four bits cannot hold (Table 15.12; log entry 36). -/
opaque width16 : Nat

/-- The management port's MAC address (R419; log entry 39). -/
opaque mgmtMac : BitVec 48

/-- The interface identifier of the management port's link-local and SLAAC addresses (R419; log entry 39). -/
opaque interfaceId : BitVec 64

/-- Whether a result that is below the least normal number only before it is rounded counts as tiny: IEEE 754 leaves it to the
implementation and the spec does not say (R140, R204; log entry 13). -/
opaque tinyBefore : Bool

/-- Credit in bytes that the receiver grants virtual channels 0 to 3 when a link comes up: the spec gives VC4's only (R457, R473; log
entry 132). -/
opaque vcCredit : Nat → Nat

/-- The Crags' power budget in W, of which each powered Crag has an equal share (R306; log entry 136). -/
opaque cragBudget : Nat

/-- The voltage in mV that a voltage monitor reads at a tick (RailVoltage; log entry 152). -/
opaque railReading : Nat → Nat → BitVec 16

/-- The payload of a LINK frame: SEAT, RopeMode and the rest (R456, R474, R475); the spec gives no layout (log entry 131). -/
opaque linkPayload : Bool → Nat → LinkInfo → List Byte

/-- What the payload of a LINK frame that arrives says: credits, acknowledgement, replay request (log entry 131). -/
opaque linkReports : List Byte → List (Nat × Nat) × Option (BitVec 12) × Option (BitVec 12)

end Sys2Proof.Config
end

