-- ==== Sys2Proof/Machine/Objects.lean ====
section
/-! DEFINITION. The object dictionary's table (R408 to R412 and the object tables of every chapter): for each object its
index, subindices, type, access, default, range, persistence, scope and the select object it lies behind. -/

namespace Sys2Proof.Machine

/-- Object types (Table 14.2); the number is the size in bytes. A BLOB's number is its full size, 0 where it varies. -/
inductive OTy where
  | bool
  | u (n : Nat)
  | s (n : Nat)
  | blob (n : Nat)
  deriving DecidableEq, Repr

/-- Access codes (Table 14.3). -/
inductive OAcc where
  | const | ro | rw | rws | wo
  deriving DecidableEq, Repr

/-- Conditions a code carries in parentheses. -/
inductive OCond where
  | none
  | free      -- RW (FREE) (R388)
  | preStop   -- in PreOp or Stopped
  deriving DecidableEq, Repr

/-- Which select object names the unit an object belongs to (R426). -/
inductive OSel where
  | one       -- the device itself
  | memch | upd | ten | usage | event | therm | rail | import | log
  | bank      -- a select object: one value in each bank (R427)
  deriving DecidableEq, Repr

/-- A row of the object tables. Subindices run from sub to subHi. -/
structure Obj where
  idx   : Nat
  sub   : Nat
  subHi : Nat
  ty    : OTy
  acc   : OAcc
  cond  : OCond
  dflt  : Nat
  lo    : Int
  hi    : Int
  persists : Bool
  tenScope : Bool
  sel   : OSel
  deriving DecidableEq, Repr

def OTy.size : OTy → Nat
  | .bool => 1
  | .u n => n
  | .s n => n
  | .blob n => n

/-- The range a type alone allows. -/
def OTy.full : OTy → Int × Int
  | .bool => (0, 1)
  | .u n => (0, (2 ^ (8 * n) : Nat) - 1)
  | .s n => (-((2 ^ (8 * n - 1) : Nat) : Int), (2 ^ (8 * n - 1) : Nat) - 1)
  | .blob _ => (0, 0)

/-- A writable row with its own range. -/
def ob (idx : Nat) (ty : OTy) (acc : OAcc) (dflt : Nat) (lo hi : Int) (sel : OSel := .one) (persists : Bool := true)
    (cond : OCond := .none) (tenScope : Bool := false) : Obj :=
  { idx := idx, sub := 0, subHi := 0, ty := ty, acc := acc, cond := cond, dflt := dflt, lo := lo, hi := hi,
    persists := persists, tenScope := tenScope, sel := sel }

/-- A row whose type alone bounds it. -/
def obF (idx : Nat) (ty : OTy) (acc : OAcc) (dflt : Nat) (sel : OSel := .one) (persists : Bool := true)
    (cond : OCond := .none) (tenScope : Bool := false) : Obj :=
  ob idx ty acc dflt ty.full.1 ty.full.2 sel persists cond tenScope

/-- A read-only row. -/
def obR (idx : Nat) (ty : OTy) (persists : Bool := false) (sel : OSel := .one) (tenScope : Bool := false) : Obj :=
  obF idx ty .ro 0 sel persists .none tenScope

/-- A command row: write-only, values lo to hi. -/
def obW (idx : Nat) (lo hi : Int) (sel : OSel := .one) (cond : OCond := .none) (tenScope : Bool := false) : Obj :=
  ob idx (.u 1) .wo 0 lo hi sel false cond tenScope

def subs (o : Obj) (lo hi : Nat) : Obj := { o with sub := lo, subHi := hi }

/-- Identity, capability, state, management and configuration objects (Tables 0.3, 14.10, 14.11, 15.11, 18.9). -/
def objs1 : List Obj := [
  obF 0x1000 (.u 2) .const 0x1FA7, obF 0x1001 (.u 2) .const 0x9440, obF 0x1002 (.u 8) .const 0,
  obR 0x1003 (.u 1), obW 0x1004 1 5, obR 0x1005 (.u 1), obR 0x1006 (.u 4), obF 0x1007 (.u 2) .const 1,
  obF 0x1010 (.u 2) .const 0x9440, obF 0x1011 (.u 4) .const 0, obF 0x1012 (.u 2) .const 256,
  obF 0x1013 (.u 1) .const 2, obF 0x1014 (.u 8) .const 0x50000000, obF 0x1015 (.u 1) .const 24,
  obF 0x1016 (.u 2) .const 0xFF, obF 0x1017 (.u 4) .const 0x3F, obF 0x1018 (.u 2) .const 64,
  obF 0x1019 (.u 1) .const 32, obF 0x101A (.u 2) .const 0x3FF, obF 0x101B (.u 1) .const 0x3F,
  obF 0x101C (.u 1) .const 16, obF 0x101D (.u 4) .const 65536, obF 0x101E (.u 1) .const 8,
  obF 0x101F (.u 2) .const 1] ++ [
  obF 0x1100 .bool .rws 0, obF 0x1101 (.blob 16) .rws 0, ob 0x1102 (.u 2) .rws 5440 1024 65535,
  obF 0x1103 (.blob 32) .wo 0 .one true .preStop, obR 0x1104 (.u 2) true, obR 0x1105 (.u 8) true, obR 0x1106 (.u 4),
  obR 0x1200 (.u 4) true, obR 0x1201 (.u 4) true, obR 0x1202 (.u 4) true, obR 0x1203 (.u 4) true, obW 0x1204 1 6,
  obR 0x1205 (.u 1), obR 0x1206 (.u 1), obR 0x1207 (.u 1) true,
  ob 0x1208 (.u 8) .rw 3000000000 600000000 36000000000, obR 0x1209 (.u 8) true,
  subs (obR 0x120A (.blob 32) true) 1 2, obR 0x120B (.u 4) true, obR 0x120C (.u 1) true, obR 0x120D .bool] ++ [
  obF 0x1300 (.u 2) .rws 0, obF 0x1301 (.u 1) .rws 0, obF 0x1302 (.u 8) .rws 0, obW 0x1303 1 1,
  ob 0x1304 (.u 8) .rw 100000 1000 100000000, obF 0x1305 (.u 1) .rw 0 .bank false,
  obF 0x1306 (.u 8) .rw 0 .import, ob 0x1307 (.u 8) .rw 10000000 10000 600000000, obR 0x1308 (.u 2),
  obR 0x1400 (.u 1) true, subs (obR 0x1401 (.u 4) true) 1 2, obF 0x1402 (.blob 0) .wo 0 .one false, obW 0x1403 1 4,
  obR 0x1404 (.u 1) true, ob 0x1405 (.u 8) .rw 6000000000 600000000 36000000000, obR 0x1406 (.u 4) true]

/-- Device configuration and per-unit objects (chapters 5, 7 to 11). -/
def objs2 : List Obj := [
  ob 0x2310 (.u 1) .rw 32 0 64, ob 0x2311 (.u 4) .rw 4096 1 2147483648, ob 0x2312 (.u 4) .rw 1024 32 1048576,
  obF 0x2320 (.u 8) .rws 0x00BFF8000000, obF 0x2321 (.u 8) .rws 0x00BFF7C00000, obF 0x2322 .bool .rw 0,
  obR 0x2323 (.u 4), obR 0x2324 (.u 4), obR 0x2325 (.u 4), obR 0x2326 (.u 4), obR 0x2327 (.u 2),
  obF 0x2330 .bool .rws 1, ob 0x2331 (.u 1) .rws 0 0 1, obF 0x2332 (.u 2) .rws 0xFFFF,
  ob 0x2333 (.u 1) .rw 0x0E 0 15] ++ [
  ob 0x2340 (.u 1) .rws 0 0 3, obR 0x2341 (.u 1), obR 0x2342 .bool, ob 0x2343 (.u 1) .rw 40 0 100,
  obF 0x2344 (.u 4) .rw 0x01020404, ob 0x2345 (.u 8) .rw 6000000000 10000000 36000000000,
  ob 0x2346 (.u 1) .rw 10 2 40, ob 0x2347 (.u 2) .rw 16 1 1024, ob 0x2348 (.u 4) .rw 1024 16 4294967295,
  ob 0x2349 (.u 8) .rw 864000000000 36000000000 6048000000000, obR 0x234A (.u 2) true,
  obR 0x234B (.blob 0) true] ++ [
  ob 0x3000 (.u 1) .rw 0 0 23 .bank false, obR 0x3001 (.u 1) false .memch, obR 0x3002 (.u 8) true .memch,
  obR 0x3003 (.u 8) true .memch, obR 0x3004 (.u 1) true .memch, obR 0x3005 (.u 8) false .memch,
  ob 0x3100 (.u 1) .rw 0 0 7 .bank false, obR 0x3101 (.u 8) false .upd, obR 0x3102 (.u 2) false .upd,
  obR 0x3103 (.u 2) false .upd, obR 0x3104 (.u 8) false .upd]

/-- Tenancy and metering objects (Tables 13.1, 13.8, R282). -/
def objs4 : List Obj := [
  ob 0x4000 (.u 1) .rw 0 0 15 .bank false, obR 0x4001 (.u 1) false .ten true, obW 0x4002 1 3 .ten .none true,
  obF 0x4003 (.u 2) .rw 0 .ten true .free true, obF 0x4004 (.u 8) .rw 0 .ten true .free true,
  ob 0x4005 (.u 4) .rw 0 0 0xFFFFF .ten true .free true, obF 0x4006 (.u 2) .rw 0 .ten true .free true,
  ob 0x4007 (.u 4) .rw 0 0 65536 .ten true .free true, subs (obF 0x4008 (.u 8) .rw 0 .ten true .free true) 1 4,
  ob 0x4009 (.u 4) .rw 0 0 0xFFFFF .ten true .free true, ob 0x400A (.u 4) .rw 0 0 1048576 .ten true .free true,
  ob 0x400B (.u 4) .rw 0 0 1048576 .ten true .free true, obF 0x400C (.u 8) .rw 0 .ten true .free true,
  obF 0x400D (.u 8) .rw 0 .ten true .none true, obF 0x400E (.u 8) .rw 0 .ten true .free true,
  obF 0x400F .bool .rw 0 .ten true .free true, obR 0x4010 .bool false .ten true,
  obW 0x4011 1 1 .ten .none true, obR 0x4012 (.u 4) true .ten true,
  ob 0x4020 (.u 8) .rw 100000000 10000 36000000000 .ten true .none true] ++ [
  ob 0x5000 (.u 8) .rw 600000000 10000000 36000000000, obF 0x5001 (.blob 32) .wo 0 .one true .preStop,
  obR 0x5002 (.u 2) true, ob 0x5010 (.u 1) .rw 0 0 15 .bank false, obF 0x5011 (.u 8) .rw 0 .bank false,
  obR 0x5012 (.blob 224) true .usage true, obR 0x5013 (.u 8) true .usage true, obR 0x5014 (.u 8) true .usage true]

/-- Fault, log and spare objects (Tables 17.6, 17.8); power, reset and sensor objects (Table 18.9). -/
def objs6 : List Obj := [
  obR 0x6000 (.blob 16), obR 0x6001 (.blob 16), subs (obR 0x6002 (.u 4)) 1 3, obW 0x6003 1 2,
  subs (obR 0x6010 (.blob 16) false .one true) 1 16, subs (obR 0x6011 (.u 4) false .one true) 1 16,
  obF 0x6020 (.u 8) .rw 0 .bank false, obR 0x6021 (.blob 32) true .log, obR 0x6022 (.u 8) true, obR 0x6023 (.u 8) true,
  obR 0x6024 (.u 4) true, obW 0x6025 1 1 .one .preStop, ob 0x6026 (.u 2) .rw 16 1 1024,
  ob 0x6027 (.u 2) .rw 64 1 4096] ++ [
  subs (obR 0x6100 (.u 1) true) 1 2, subs (obR 0x6101 (.u 1) true) 1 2, subs (obR 0x6102 (.u 1) true) 1 4,
  subs (obR 0x6103 (.u 1) true) 1 4, subs (obR 0x6104 (.u 1) true) 1 15, subs (obR 0x6105 (.u 1) true) 1 15,
  obR 0x6106 (.u 1) true, obR 0x6107 (.u 1) true, subs (obR 0x6108 (.u 1) true) 1 24,
  subs (obR 0x6109 (.u 2) true) 1 24, obR 0x610A (.u 1) true, obR 0x610B (.u 1) true, obR 0x6110 (.u 2) true,
  obR 0x6111 (.blob 512) true] ++ [
  obR 0x7000 (.u 4), obR 0x7001 (.u 8), ob 0x7002 (.u 2) .rw 680 300 680, obR 0x7003 (.u 1), obR 0x7004 (.u 1),
  ob 0x7010 (.u 1) .rw 0 0 63 .bank false, obR 0x7011 (.s 2) false .therm, obR 0x7012 (.s 2),
  ob 0x7020 (.u 1) .rw 0 0 23 .bank false, obR 0x7021 (.u 2) false .rail, obR 0x7022 (.u 4) true,
  obR 0x7023 (.u 4) true, obR 0x7030 (.u 1), ob 0x7031 (.u 1) .rws 0 0 1, obR 0x7032 (.blob 36)]

/-- Time and twin objects (Tables 12.6, 16.8). -/
def objs8 : List Obj := [
  obR 0x8000 (.u 8), ob 0x8001 (.u 1) .rws 0 0 4, ob 0x8002 (.u 1) .rws 0 0 7, obR 0x8003 (.u 1), obR 0x8004 (.s 4),
  ob 0x8005 (.u 8) .rw 36000000000 10000000 36000000000, ob 0x8006 (.u 4) .rw 10000 100 1000000,
  ob 0x8007 (.u 2) .rw 0 0 0x1FF, subs (ob 0x8008 (.s 4) .rw 0 (-100000) 100000) 1 9, obR 0x8009 (.u 1),
  obW 0x800A 1 1, ob 0x800B (.u 1) .rws 0 0 127, obF 0x800C (.u 8) .wo 0 .one false,
  ob 0x8010 (.u 2) .rw 0 0 4095 .bank false, obF 0x8011 (.blob 32) .rw 0 .event false, obR 0x8012 (.u 2),
  obR 0x8013 (.u 4), obR 0x8020 (.u 8), obR 0x8021 (.u 4), obF 0x8022 .bool .rw 0 .bank false] ++ [
  ob 0x8100 (.u 1) .rws 0 0 2, obR 0x8101 (.u 1), obR 0x8102 (.u 1), obR 0x8103 (.u 8) true, obR 0x8104 (.u 1),
  ob 0x8105 (.u 1) .rw 0 0 2, ob 0x8106 (.u 8) .rw 10000000 100000 600000000, obR 0x8107 .bool, obW 0x8108 1 2,
  obW 0x8109 1 3, ob 0x810A (.u 8) .rw 10000000 100000 36000000000,
  ob 0x810B (.u 8) .rw 100000000 10000000 36000000000, obR 0x810C (.u 2), subs (obR 0x810D (.u 8)) 1 16]

/-- Every object, in ascending index. -/
def objects : List Obj := objs1 ++ objs2 ++ objs4 ++ objs6 ++ objs8

/-- The row an index and subindex name; subindices 0x08 and 0x09 of the Ridge counts do not exist (R516: link i of
die d at 8 d + i + 1, i from 0 to 6, the link between the Crag dies at CD0 only). -/
def findObj (idx sub : Nat) : Option Obj :=
  if (idx = 0x6104 ∨ idx = 0x6105) ∧ (sub = 8 ∨ sub = 9) then none
  else objects.find? fun o => o.idx = idx && decide (o.sub ≤ sub) && decide (sub ≤ o.subHi)

/-- The key of an object's value for a selection. -/
def okey (idx sub sel : Nat) : Nat := (idx * 256 + sub) * 65536 + sel

/-- The value an object has before anything has written it: its default. -/
def odDefault (key : Nat) : Nat :=
  match findObj (key / 16777216) (key / 65536 % 256) with
  | some o => o.dflt
  | none => 0

/-- Objects of the configuration set (R432). -/
def inConfig (o : Obj) : Bool := o.persists && (o.acc = .rw || o.acc = .rws)

/-- The integer a stored code stands for under the object's type. -/
def OTy.value : OTy → Nat → Int
  | .s n, c => toSigned (8 * n) c
  | _, c => (c : Int)

end Sys2Proof.Machine
end

