-- ==== Sys2Proof/Machine/State.lean ====
section
/-! DEFINITION. The state of the block: every register, queue, memory, counter, table and pin the spec gives the
KD-9440, as plain data, and the queue of waiting commands. Each field's comment gives the rule of spec/ that names it;
its value at reset stands in State.reset and the reset values of the parts below (the log entries named there say
which of them the spec does not give). Identical units are held in sparse tables: a unit the table does not list is in
the reset state of its part. -/

namespace Sys2Proof.Machine

/-! ## The parts of a Crag -/

/-- An entry of a data queue (R77). Valid bytes only: FILL is their number minus one. -/
structure Entry where
  bytes  : List Byte
  last   : Bool
  poison : Bool
  deriving DecidableEq, Repr

/-- A data queue (R75, Table 3.7): entries oldest first, HEAD and TAIL slot numbers. -/
structure Queue where
  ents : List Entry
  head : Nat
  tail : Nat
  deriving DecidableEq, Repr

/-- A packet in a Crag's FIFO, marked when it was sent (R43). -/
structure FPkt where
  pkt      : Packet
  selected : Bool
  mcSet    : List Nat      -- STREAM.MCAST: the selected Crags of the party when it was sent (R105)
  tag      : Nat × Nat     -- the Summit that sent it, and its number among that Summit's packets (R66, R67)
  deriving DecidableEq, Repr

/-- A packet on its way to a Crag (R44); one that a Crag reset caught is discarded when it arrives (R72). -/
structure Flight where
  pkt      : Packet
  selected : Bool
  discard  : Bool
  mcSet    : List Nat
  tag      : Nat × Nat
  deriving DecidableEq, Repr

/-- A summary contribution on its way to the reduction tree (R65, R66): the packet it answers, the pass of the Tally loops on which that
packet was dispatched, the reduction, and the value or nothing. -/
structure Contrib where
  tag    : Nat × Nat
  pass   : List Nat
  sreg   : Nat
  kind   : Nat
  signed : Bool
  value  : Option W32
  poison : Bool
  deriving DecidableEq, Repr

/-- An active Tally loop (R61): its counter, the latched N, the FIFO position and length of its body, the iteration
index. -/
structure Loop where
  ctr   : Nat
  n     : W32
  start : Nat
  len   : Nat
  idx   : W32
  deriving DecidableEq, Repr

/-- A comparator (R63, Table 2.7); configured is false after reset ("always false"). -/
structure Comparator where
  configured : Bool
  ctr        : Nat
  rel        : Nat
  fromLast   : Bool
  value      : W32
  deriving DecidableEq, Repr

/-- A task entry (R289, Table 9.4) with what the Scheduler holds beside it. -/
structure Task where
  payload : BitVec 512
  flow    : Nat
  atomic  : Bool
  list    : Nat
  release : W64
  putCrag : Nat
  putUnit : Nat
  ten     : Nat
  seq     : Nat            -- TASKSEQ
  store   : Nat            -- address of its entry in the store (R287)
  ret     : Bool           -- returned by a reset, ahead of the tasks put (R298)
  deriving DecidableEq, Repr

/-- A put an op still has to make, with the Ledge writes (a hub note, a count-list entry) that follow it (R227, R292). -/
structure PutLeft where
  task : Task
  notes : List (Nat × List Byte × Bool)
  deriving DecidableEq, Repr

/-- How far a dispatched macro-op has come. -/
inductive Stage where
  | dispatched   -- in the issue buffer, not started
  | ordered      -- a stream that has copied its descriptor and waits under ORDER (R83)
  | member       -- a STREAM.MCAST that is a ready member (R106)
  | gathering    -- started; takes queue entries
  | reading      -- started; waits for memory blocks
  | draining     -- started; pushes result entries
  | acking       -- everything written; waits for acknowledgements
  | waiting      -- started; waits on a Belay or a task
  | done         -- finished; MACRO_OP_COMPLETE releases it
  deriving DecidableEq, Repr

/-- A 128 B block that another device or the host answered to an op of the gather engine. -/
structure Blk where
  host   : Bool
  addr   : Nat
  bytes  : List Byte
  poison : Bool
  deriving DecidableEq, Repr

/-- What an op of the gather engine waits for: a block of another device or of the host, the translation of a host address, or the answer to
a page request for it (R113, R256). -/
inductive Want where
  | block (host : Bool) (addr : Nat)
  | ats (addr : Nat)
  | pri (addr : Nat)
  deriving DecidableEq, Repr

/-- Where the data of an embedding row lies (R242). -/
inductive RowAt where
  | default_ (a : Nat)
  | device (a : Nat)
  | remote (a : Nat)
  | cold (a : Nat)
  deriving DecidableEq, Repr

/-- How far an op of the gather engine, or an EUPD, has come: input elements taken, output rows finished, the present row's place, rows
pooled so far, blocks answered, what is waited for and since when, host pages translated, array blocks held (Table 7.5), the count list's
present row image, hub notes written, the entry or Ledge block being filled (R88), Ledge bytes written, blocks requested and draws made
(R219). -/
structure Walk where
  pos    : Nat
  row    : Nat
  at_    : Option (RowAt × Bool)
  rows   : List (List Byte × Bool)
  got    : List Blk
  want   : Option Want
  since  : W64
  pages  : List Nat
  held   : List ((Nat × Nat) × (List Byte × Bool))
  counts : List (Nat × Bool)
  notes  : Nat
  pack   : List Byte
  packPois : Bool
  ledgeAt : Nat
  blocks : Nat
  draws  : Nat
  deriving DecidableEq, Repr

def Walk.reset : Walk :=
  { pos := 0, row := 0, at_ := none, rows := [], got := [], want := none, since := 0, pages := [], held := [], counts := [], notes := 0,
    pack := [], packPois := false, ledgeAt := 0, blocks := 0, draws := 0 }

/-- What a member of a vector chain keeps between strips (R193, R199 to R202): the running value of a scan and its poison, the heads it met,
whether a head flag was poisoned, the accumulators of a reduction, results and blocks put out so far, and the bytes of the block being
filled. Running values stand as FP32 or INT32 codes. -/
structure VMem where
  carry : W32
  rp    : Bool
  heads : Nat
  hp    : Bool
  lanes : List (W32 × Bool)
  nout  : Nat
  nblk  : Nat
  pend  : List Byte
  pendPois : Bool
  deriving DecidableEq, Repr

/-- Where a vector chain stands: the row, strip and member that run next (R193), and its members. -/
structure VWalk where
  row   : Nat
  strip : Nat
  mem   : Nat
  mems  : List VMem
  deriving DecidableEq, Repr

/-- A macro-op dispatched to a unit of a Crag and not yet completed (R36, R37, R54). -/
structure Op where
  n       : Nat            -- dispatch number
  unit    : Nat            -- 0 AU, 1 EU
  pkt     : Packet         -- with the region offsets of R55 applied
  members : List Packet    -- the packets that joined a vector chain (R192)
  mcSet   : List Nat       -- STREAM.MCAST: its members (R105)
  lidx    : W32            -- iteration index latched at dispatch (R65)
  pred    : Bool           -- PRED true at dispatch
  head    : Bool           -- the BELAY.WAIT at the head of a scheduled region (R98)
  stage   : Stage
  needA   : Nat            -- entries still to pop for SRCA
  needB   : Nat            -- entries still to pop for SRCB
  inA     : List Entry
  inB     : List Entry
  inV     : Tab (List Entry) -- a vector chain's entries: operand k of member i at 3 i + k
  vec     : VWalk          -- a vector chain: how far it has come
  outQ    : List (Nat × Entry) -- result entries not yet pushed, with their queues
  acks    : Nat            -- writes issued and not yet acknowledged (R23)
  remoteUps : List Nat     -- EUPD: home addresses of the updates that another device has not acknowledged (R248, R249)
  posts   : Bool           -- POST: a Belay post follows completion (R94)
  count   : Nat            -- element count for SUMMARY SSRC 3
  cycles  : Nat            -- duration in CCLK cycles
  epoch   : W64            -- the Crag's epoch when the op started
  targets : List (Nat × Int) -- a wait's Belays and targets still unmet, current first (R272, R273)
  abandoned : Bool         -- the wait was released under R285
  puts    : List PutLeft   -- puts still to make
  desc    : BitVec 512     -- the descriptor or table entry read at start (R214, R237)
  descPois : Bool
  walk    : Walk           -- GATHER, SAMPLE, POOL, EUPD: how far it has come
  seed    : W64            -- TenSeed when the op started (R135, R221, R247, R389)
  hyp     : List W32       -- EUPD: the hyperparameters read at its start (R247)
  hypPois : Bool
  poisonSent : Bool        -- POISON already raised by this op (R111, R249)
  ffl     : BitVec 6       -- flags that the op sets in CRAG_FFLAGS and CRAG_VFLAGS when it completes (R140)
  vfl     : BitVec 7
  sumTag  : Nat × Nat      -- the packet it was dispatched from, and on which pass of the loops (R66, R107)
  sumPass : List Nat
  regNo   : Nat            -- BELAY.WAIT: order of registration among the Crag's waits (Table 9.12)
  deriving DecidableEq, Repr

/-- A stream channel (R84, Tables 3.10 and 3.11). -/
structure Chan where
  state   : Nat            -- CH_STATE.STATE
  opc     : BitVec 8
  seq     : BitVec 8
  poisonSeen : Bool
  pfFail  : Bool
  op      : Nat            -- dispatch number of the op that holds the channel
  desc    : BitVec 512     -- the descriptor as copied (R83)
  descPois : Bool          -- it lay in a poisoned block (R110)
  next    : Nat            -- elements visited so far; for CMP = 1, tiles begun
  blk     : Nat            -- CMP = 1: blocks of the current tile moved so far
  blks    : Nat            -- CMP = 1: blocks the current tile's header states
  hdr     : BitVec 128     -- CMP = 1: the current tile's header
  hdrPois : Bool
  storePos : Nat           -- CMP = 1 write: block-store position of the next tile
  cur     : Nat            -- address of the next access
  idxAt   : Option (Nat × Nat × Bool) -- index position last read, its value and poison
  pack    : List Byte      -- bytes of the entry, or of the run of writes, being filled (R88)
  packPois : List Bool     -- poison of its 128 B blocks
  packAt  : Nat            -- write: address of the run
  src     : List Byte      -- write: bytes of the popped entry not yet taken
  srcPois : Bool
  tileIn  : Bool           -- CMP = 1 write: the tile's header has been taken
  ledgeAt : Nat            -- Ledge bytes moved so far
  done    : W32            -- CH_DONE
  faultVa : BitVec 48      -- CH_FAULTVA
  pos     : List Nat       -- CH_POS0 to CH_POS4
  idxPos  : W32            -- CH_IDXPOS
  owed    : List (Nat × Nat) -- elements taken and not yet delivered or written: position, address
  pages   : List Nat       -- ASP 1: host pages with a valid translation for this op (R112)
  since   : W64            -- ASP 1: when its page request was made (R114)
  asked   : Bool           -- ASP 1: a host read is outstanding
  deriving DecidableEq, Repr

/-- A cached translation: tenancy, 2 MiB virtual page number, physical base of that page, W (R395). -/
structure Tlb where
  ten  : Nat
  page : Nat
  base : Nat
  w    : Bool
  deriving DecidableEq, Repr

/-- Front end of a Crag: FIFO, Tally, region dispatch state (R33, R36, R59 to R63, R99). -/
structure FrontEnd where
  flight   : List Flight   -- packets on their way (R44)
  fifo     : List FPkt     -- packets held (R33)
  rp       : Nat           -- position in the FIFO of the next packet to dispatch
  loops    : List Loop     -- active loops, innermost first (R61, R62)
  skip     : Nat           -- body packets still to discard for a loop with N = 0 (R61)
  counts   : Tab W32       -- count registers CRAG_TCNT0-7 (R60)
  cmps     : Tab Comparator -- comparators 0-3 (R63)
  peak     : Nat           -- peak packets held, CRAG_FIFO[22:16]
  frozen   : Bool          -- FE_FROZEN: a party stop froze the Crag (R68)
  region   : Nat           -- dispatch state: 0 none, 1 armed, 2 open (R99)
  chain    : List Packet   -- members of a vector chain dispatched so far, head first (R192)
  chainLeft : Nat          -- members still to come
  chainSel : List Bool     -- which of its members execute (R53)
  nextN    : Nat           -- next dispatch number
  seqDisp  : BitVec 8      -- CRAG_SEQ fields
  seqAu    : BitVec 8
  seqEu    : BitVec 8
  deriving DecidableEq, Repr

/-- Timed state of the scheduled region of a Crag (R98, R100, R101, Tables 3.6 and 3.9). -/
structure Region where
  state   : Nat            -- CRAG_SCHED.STATE: 0 none, 1 armed, 2 open
  lateTol : Bool
  lateLimit : Bool
  seq     : BitVec 8       -- REGION_SEQ
  limit   : W32
  tol     : W32
  timer   : W32            -- CRAG_RTIMER
  waitAu  : Nat            -- consumer-wait counts
  waitEu  : Nat
  blocked : Nat            -- cycles with both units blocked (R96)
  qdl     : W32            -- CRAG_QDL
  deriving DecidableEq, Repr

/-- Fabric, GME and Vector Engine registers of a Crag (R142, R181, R207). -/
structure ExecRegs where
  fflags   : BitVec 6      -- CRAG_FFLAGS
  fcw      : W32           -- CRAG_FCW
  fbusy    : W64           -- CRAG_FBUSY
  reconf   : Bool          -- the next fabric op reconfigures whatever CRAG_FCW reads (R142)
  gstate   : Nat           -- CRAG_GSTAT.STATE
  gtail    : Bool          -- POISON_TAIL
  gopc     : BitVec 8
  gseq     : BitVec 8
  spth     : BitVec 7      -- CRAG_SPTH
  gsparse  : W32
  gdense   : W32
  gguard   : W32
  vstate   : Nat           -- CRAG_VSTAT.STATE
  vmembers : Nat
  vopc     : BitVec 8
  vseq     : BitVec 8
  vflags   : BitVec 7      -- CRAG_VFLAGS
  vlanef   : Tab W64       -- CRAG_VLANEF0-6
  vbusy    : W64
  vrsel    : BitVec 5      -- CRAG_VRSEL
  deriving DecidableEq, Repr

/-- Gather, embedding, Belay and task registers of a Crag (R233, R265, R308). -/
structure AccessRegs where
  gthState : Nat           -- CRAG_GTHSTAT
  gthOpc   : BitVec 8
  gthSeq   : BitVec 8
  gthPois  : Bool
  hubTh    : W32
  hubSeg   : W32
  hubCtr   : W32
  hubInl   : W32
  gin      : W32
  gout     : W32
  goutst   : Nat
  embState : Nat           -- CRAG_EMBSTAT
  embOpc   : BitVec 8
  embSeq   : BitVec 8
  embPois  : Bool
  embGen   : BitVec 16
  embTable : BitVec 12
  embDef   : W32
  euSkip   : W32
  euPois   : W32
  migRef   : W32
  embCold  : W32
  bAbandoned : Bool        -- CRAG_BSTAT W1C bits
  bTimeout : Bool
  bRange   : Bool
  tSlotBusy : Bool         -- CRAG_TSTAT W1C bits
  tDoneEmpty : Bool
  tReturned : Bool
  tTaken   : W32
  bivCyc   : W64
  deriving DecidableEq, Repr

/-- A Crag (R33). -/
structure Crag where
  fe      : FrontEnd
  ops     : List Op        -- dispatched and not completed, in dispatch order (R54)
  queues  : Tab Queue      -- Q0-Q15 (R75)
  ledge   : Mem            -- 1 MiB (R33)
  lpois   : Tab Bool       -- poison of each 128 B Ledge block (R108)
  zmap    : Tab Bool       -- zero map, one bit per 64 B half-block (R151)
  vregs   : Tab W32        -- V0-V31, lane j of register r at 64 r + j (R182)
  vpois   : Tab Bool       -- poison bit of each register lane (R182)
  chans   : Tab Chan       -- stream channels 0-7 (R33)
  region  : Region
  ex      : ExecRegs
  ac      : AccessRegs
  slots   : Tab (Option Task) -- in-service task slots 0-3 (R295)
  tlb     : List Tlb       -- cached translations (R395)
  cntAu   : Nat            -- count reported by the AU's last completed op (R65)
  cntEu   : Nat
  epoch   : W64            -- epoch number (R484)
  bivouac : Bool           -- R304
  idle    : Nat            -- consecutive cycles that count toward Bivouac (R304)
  refused : Bool           -- CRAG_STATE.REFUSED (R71)
  marked  : Bool           -- marked for sparing (R517)
  ceTimes : List W64       -- IT of recent CRAG_CE events (R517)
  credits : Nat            -- freed FIFO slots whose credit is on its way (R45)
  contrib : List Contrib   -- summary contributions on their way (R44)
  deriving DecidableEq, Repr

/-! ## The Summit -/

/-- STATE of Table 2.12. -/
inductive SumState where
  | reset | loading | halted | running | ganged | faulted
  deriving DecidableEq, Repr

/-- What a Summit is stalled on, with what its instruction still has to do. -/
inductive Stall where
  | issue (pkt : Packet) (len : Nat)
  | sum (n rd len : Nat)
  | fence (len : Nat)
  deriving DecidableEq, Repr

/-- A reduction in progress (R66): the packet and the pass that it answers, the destination, its kind and the contributions received, by
Crag. -/
structure Reduction where
  num    : Nat
  pass   : List Nat
  sreg   : Nat
  kind   : Nat
  signed : Bool
  got    : List (Nat × Option W32 × Bool)
  deriving DecidableEq, Repr

/-- A Summit (R41, R73). -/
structure Summit where
  state   : SumState
  lead    : Nat            -- LEAD
  spurs   : BitVec 16      -- SPURS
  pc      : W64
  xs      : Tab W64        -- x1-x31
  mtvec   : W64
  mepc    : W64
  mcause  : W64
  mtval   : W64
  mstatus : W64
  mscratch : W64
  mie     : W64
  minstret : W64
  mcycle  : W64
  imem    : Mem            -- 64 KiB
  dmem    : Mem            -- 256 KiB
  issue   : Tab W64        -- ISSUE doublewords 0-3 (R42)
  tmask   : Tab W64        -- TMASK1-7, doubleword k of mask m at 4 m + k (R43)
  credits : Tab Nat        -- credit per logical Crag (R45)
  sums    : Tab W64        -- SUM0-15 as last made readable
  sumPois : Tab Bool
  sentNo  : Nat            -- packets sent since POR: numbers the packets (R66)
  sumSent : Tab Nat        -- number of the most recent SUMMARY sent to SUMn (R67)
  sumDone : Tab Nat        -- number of the SUMMARY whose result SUMn holds
  reds    : List Reduction
  stall   : Option Stall
  wacks   : Nat            -- window stores not yet acknowledged (R47)
  imemSrc : BitVec 48
  dmemSrc : BitVec 48
  imemLen : BitVec 17
  dmemLen : BitVec 19
  pcStart : BitVec 16
  loadErr : Bool
  cfgRefused : Bool
  brk     : Bool           -- BREAK
  issued  : W64            -- SUMMIT_ISSUED
  stallCyc : W64           -- SUMMIT_STALL_CYC
  tlb     : List Tlb
  runHeld : Bool           -- a RUN that waits for a sparing to end (R518)
  haltReq : Bool           -- a HALT that waits for the stalled instruction to complete (Table 2.11)
  deriving DecidableEq, Repr

/-! ## Belays and the Scheduler -/

/-- A registered wait (R272). -/
structure Waiter where
  crag    : Nat
  unit    : Nat
  op      : Nat
  target  : Int
  elapsed : Nat            -- IT ticks counted by its watchdog (R283)
  deriving DecidableEq, Repr

/-- A Belay (R266, Tables 9.8 and 9.9). -/
structure Belay where
  value    : W64
  sat      : Bool
  refused  : Bool
  abandoned : Bool
  lastSig  : W32           -- Table 9.10
  lastIt   : W64
  waiters  : List Waiter   -- in arrival order
  deriving DecidableEq, Repr

/-- A post on its way to a slice (R267). -/
structure Post where
  belay : Nat
  inc   : W32
  sig   : W32
  crag  : Option (Nat × Nat) -- the Crag and dispatch number of the op that waits for it
  reply : Option (Nat × Frame) -- a remote post: where its POST frame arrived, and the frame (R464)
  deriving DecidableEq, Repr

/-- A TASK.TAKE that waits (R295). -/
structure Taker where
  crag : Nat
  unit : Nat
  op   : Nat
  ten  : Nat
  mask : BitVec 8
  slot : Nat
  since : W64
  deriving DecidableEq, Repr

/-- The Scheduler (R287 to R303, Table 9.14). -/
structure Sched where
  ready   : List Task      -- queued tasks, each list in its put order
  delay   : List Task      -- delay list, by RELEASE, ties in put order (R302)
  takers  : List Taker     -- in waiting order
  lastTook : Tab Nat       -- flow to logical Crag plus one that last took one of its tasks (R293)
  nextSeq : Nat            -- TASKSEQ of the next put
  elig    : List Nat       -- queued tasks that are eligible, by TASKSEQ, in the order in which they became so (R294)
  trWr    : Nat            -- TraceWrIndex
  trDropped : W32
  deriving DecidableEq, Repr

/-! ## Tenancies -/

/-- The run-time state and meters of a tenancy (R388, R401, Tables 13.1 and 13.6). Its objects are OD values. -/
structure Ten where
  state   : Nat            -- 0 FREE, 1 ACTIVE, 2 RESETTING
  holds   : Bool           -- TenHoldsSlice
  deferred : Bool          -- a slice end deferred by an open region (R103)
  preempt : Bool           -- pre-empted by the twin protocol (R488)
  resets  : W32
  resetsAtClose : W32
  activeCyc : W64
  bivCyc  : W64
  energy  : W64
  energyFrac : Nat         -- microjoules carried to the next millisecond (R402)
  lent    : W64
  borrowed : W64
  lentFrac : Nat           -- microjoules lent and borrowed that make no millijoule yet (R306)
  borrowedFrac : Nat
  dram    : Tab W64        -- TEN_DRAM0-3
  dramMs  : Nat            -- DRAM bytes of the current millisecond (R402)
  ridge   : W64
  trav    : W64
  rope    : W64
  slice   : W64
  shadow  : List W64       -- meter shadows at the last close (R403)
  startIt : W64            -- first tick of the open usage interval
  partialIv : Bool         -- the interval did not begin at the previous close (R406)
  recSeq  : W64            -- SEQ of the next usage record (R405)
  records : List (W64 × List Byte) -- the newest 1,024 records (R407)
  deriving DecidableEq, Repr

/-! ## Cache and memory -/

/-- Sector state bits (R310). -/
structure Sector where
  valid  : Bool
  dirty  : Bool
  poison : Bool
  deriving DecidableEq, Repr

/-- A cache line (R310): its tag and four sectors. -/
structure Line where
  tag : Nat
  sec : List Sector
  deriving DecidableEq, Repr

/-- A request that waits for a fill: its class, its tenancy and its bypass hint (R315, R336). -/
structure FillReq where
  cls    : Nat
  ten    : Nat
  bypass : Bool
  deriving DecidableEq, Repr

/-- A sector fill in flight (R315): its address, the tenancy a prefetch is counted against, and the requests that wait, the one that began
it first; none for a prefetch that nothing has joined. -/
structure Fill where
  pa    : Nat
  ten   : Nat
  pre   : Bool             -- begun by a prefetch (R321)
  reqs  : List FillReq
  deriving DecidableEq, Repr

/-- A cache slice (R310, R338, Tables 10.3 to 10.9). -/
structure Slice where
  lines   : Tab Line       -- line of set s, way w at 16 s + w
  data    : Mem            -- byte b of that line at 512 (16 s + w) + b
  plru    : Tab (BitVec 15) -- replacement tree of each set (R318)
  wpmS    : Bool           -- WayPowerMode in force (R332)
  enabled : Bool           -- CD_STATUS.ENABLED
  sweep   : Bool
  dirtyRef : Bool          -- CD_STATUS.DIRTY
  refused : Bool
  lost    : Bool
  waySweep : BitVec 16     -- CD_STATUS.WAYSWEEP: ways being swept or initialised
  wayInit : BitVec 16      -- those of them that are being initialised (R329)
  wayEn   : BitVec 16
  wayPwr  : BitVec 16
  noAlloc : BitVec 16
  wayRet  : BitVec 16
  undef   : BitVec 16      -- ways powered on under WPM=S whose tags and data are still undefined (R330)
  cmoAddr : Tab (BitVec 48) -- CD_CMO_ADDR of each bank: 0 host, 1 Basecamp, 2 OD
  cmoLen  : Tab W32
  cmoBusy : Bool
  cmoDone : Bool
  cmoRefused : Bool
  cmoBank : Nat
  cmoOp   : Nat            -- the operation that runs, and the lines it visits when their fills complete (R324)
  cmoWay  : Option Nat
  cmoPend : List Nat
  cmoWb   : W32
  cmoDrop : W32
  hits    : W64
  ce      : W32
  ue      : W32
  miss    : Tab W64        -- CD_MISSt
  pf      : Tab W64        -- CD_PFt
  wb      : Tab W64        -- CD_WBt
  grpMap  : Tab (BitVec 6) -- CD_GRPMAP0-31; an unlisted group reads 0x1F
  fills   : List Fill
  deriving DecidableEq, Repr

/-- A row-remap entry (R362, MC_RMENTRY). -/
structure Remap where
  valid   : Bool
  pending : Bool           -- PPR_PENDING
  row     : Nat            -- RANK, BG, BANK and ROW as bits 34:13 of X
  spare   : Nat
  dev     : Nat            -- 7 unknown
  remaps  : Nat
  deriving DecidableEq, Repr

/-- A rank row that failed (R362): its failing device or 7, its failing blocks, and whether requests to it are held, as they are from the tick
after its failure on (log entry 118). -/
structure RowHold where
  row : Nat
  dev : Nat
  bad : List Nat
  on  : Bool
  deriving DecidableEq, Repr

/-- A memory channel (R339, R369, Tables 11.8 to 11.13). -/
structure MemCh where
  state   : Nat            -- MC_STATUS.STATE
  trained : Bool           -- training has completed since reset (R367)
  due     : Bool
  dueSince : W64
  emerg   : Bool
  trainFail : Bool
  refused : Bool
  mark    : Tab Nat        -- marked device of rank 0 and 1; 7 none
  ce      : W32
  ue      : W32
  lastErr : W64
  rmIdx   : BitVec 12
  remaps  : Tab Remap
  spareUsed : List Nat     -- spare rows in use or worn out (R363)
  lastPause : W32
  tgCtrl  : W32
  tgBusy  : Bool
  tgDone  : Bool
  tgFail  : Bool
  tgRefused : Bool
  tgBase  : BitVec 35
  tgLen   : BitVec 28
  tgSeed  : W32
  tgStride : BitVec 28
  tgCount : W64
  tgErrs  : W64
  tgFirst : BitVec 35
  tgPinLo : W64
  tgPinHi : BitVec 16
  pinCe   : Tab W32        -- MC_PINCE0-79
  pinTimes : List (Nat × W64) -- pin and IT of recent corrections (R353, R360)
  rowTimes : List ((Nat × Nat) × W64) -- channel address, device (7 none) and IT of recent corrected blocks (R362)
  lastTrain : W64
  trainTemp : Int
  rowsHeld : List RowHold  -- rank rows that failed and await their copy (R362)
  wq      : List Nat       -- blocks in the write queue, oldest first (R348)
  retrain : Bool           -- a retrain is under way (R359)
  holdAt  : W64            -- IT when the present hold began
  temp    : Int            -- temperature last reported, in degrees C
  again   : Bool           -- a retrain requested while held (R359)
  chCe    : W64            -- MemChCE, persistent
  chUe    : W64
  pprQueue : List Nat      -- entries whose hPPR is under way (R365)
  hpprUsed : List (Nat × Nat) -- device and bank group whose hPPR repair is spent (R365, R515)
  resetN  : Bool           -- Mc_RESET_N driven high: from the first training on (Table 19.6)
  deriving DecidableEq, Repr

/-- An update sent to an Update Unit (R246): the EUPD's Crag and op, opcode, table entry as read, index, the row of
FP32 elements, hyperparameters, poison. -/
structure Upd where
  crag   : Nat
  op     : Nat
  opc    : BitVec 8
  ten    : Nat
  dirEnt : BitVec 512
  idx    : Nat
  row    : List W32
  hyp    : List W32
  dest   : Nat             -- EUPD.MIGRATE: destination address
  rnd    : Bool
  epoch  : W64
  rstream : BitVec 16
  seed   : W64
  deriving DecidableEq, Repr

/-- A migration in progress (R258). -/
structure Mig where
  crag  : Nat
  op    : Nat
  ten   : Nat
  row   : Nat
  dirEnt : BitVec 512
  bucketAt : Nat           -- tenancy virtual address of the forwarding entry
  dst   : Nat              -- destination slot address
  srcAt : Nat
  state : Nat              -- 1 copying, 3 returning
  phase : Nat              -- 0 claim, 1 copy, 2 switch awaits its acknowledgement
  held  : List Upd
  deriving DecidableEq, Repr

/-- An Update Unit (R246, Table 8.7). -/
structure UpdUnit where
  queue : List Upd
  migs  : List Mig
  rowsDone : W64
  slotBytes : W64
  served : Nat             -- tenancy whose update or migration it served last (R402)
  deriving DecidableEq, Repr

/-- A remote request without its response (R468). -/
structure Remote where
  tag   : BitVec 12
  typ   : Nat              -- 1 WRITE, 2 READ, 3 POST
  dev   : BitVec 16
  crag  : Nat
  op    : Nat
  ten   : Nat
  belay : Nat
  sentAt : W64
  gone   : Bool            -- sent under a route entry that TravRouteInval dropped (R463)
  deriving DecidableEq, Repr

/-- DeviceState of Table 14.10. -/
inductive DevState where
  | init | preOp | ready | run | stopped | fenced
  deriving DecidableEq, Repr

/-- Fuses and straps (R3, R4, R474, R514, R558). -/
structure Fuses where
  gradeC : Bool
  gradeN : Bool
  gradeP : Bool
  gradeS : Bool
  seat   : Bool
  testMode : Bool
  testFuseIntact : Bool
  serial : W64
  deriving DecidableEq, Repr

/-- What leaves the block, oldest first: an observer on its pins and links sees these. -/
inductive Out where
  | msix (vector : Nat)
  | hostWrite (pasid : Nat) (iova : Nat) (data : List Byte) (poison noSnoop : Bool)
  | hostRead (pasid : Nat) (iova : Nat) (bytes : Nat) (noSnoop : Bool)
  | remoteUpdate (dev addr : Nat) (u : Upd)
  | atsRequest (pasid : Nat) (page : Nat)
  | pageRequest (pasid : Nat) (iova : Nat)
  | atsInvalidated (pasid : Nat) (page : Nat)
  | completion (data : List Byte) (poison : Bool)
  | unsupported
  | crs
  | frame (port : Nat) (f : Frame)
  | datagram (src : BitVec 16) (addr : BitVec 128) (port : BitVec 16) (msg : List Byte) (tag : List Byte)
  | ptpDelayReq
  | icmp6 (m : Icmp6)
  | pin (name : String) (level : Bool)
  | rail (name : String) (on : Bool)
  | cacheData (pa : Nat) (data : List Byte) (poison : Bool)
  | jtag (bits : List Bool)
  | smbus (data : List Byte)
  deriving DecidableEq, Repr

/-- A Traverse port or the Rope link (R454 to R457, R470, R472, R498). -/
structure Port where
  state   : Nat
  lanes   : BitVec 18      -- active lanes
  spares  : Nat            -- spare lanes in use
  half    : Bool
  downEvt : Bool
  neigh   : Option (BitVec 16)
  neighSeat : Bool
  tx      : W64
  rx      : W64
  crcErr  : W32
  replay  : W32
  discard : W32
  fwdBytes : W64
  copyBytes : W64
  credit  : List Nat       -- bytes of each virtual channel that the receiver still grants (R457)
  waitQ   : List Frame     -- frames that wait for credit, or for a retrain to end
  sent    : List Frame     -- the last 64 frames sent that are not acknowledged (R456)
  txSeq   : BitVec 12      -- LSEQ of the next frame sent
  rxSeq   : BitVec 12      -- LSEQ of the next frame received
  owed    : List Nat       -- bytes of each virtual channel to be returned as credit
  ackDue  : Bool           -- a frame received is not acknowledged yet
  askDue  : Bool           -- a replay is to be asked for
  linkDue : Bool           -- a LINK frame is to be sent
  asking  : Bool           -- a replay has been asked for and has not come
  sentT1  : Nat            -- T1 of the time exchange sent and not answered, plus 1 (R460)
  deriving DecidableEq, Repr

/-- What waits for the acknowledgement of earlier BAR2 writes (R280, R444). -/
inductive HostWait where
  | post (belay inc : Nat)
  | read (pa bytes : Nat)
  deriving DecidableEq, Repr

/-- Why a command waits: a channel that holds an address (R358, R362), a fill of its line or the end of one (R315), VC4 credit
(R479), an earlier command of its source (R444, R456, R479), the responses to requests under dropped routes (R463), or one of the tags,
page requests and invalidations that the PCIe port has (R442). -/
inductive Hold where
  | space (pa : Nat)
  | row (pa : Nat)
  | fill (pa : Nat)
  | credit
  | order
  | routes
  | port
  deriving DecidableEq, Repr

/-- A command that waits: it happens when what it waits for has come (log entry 16). -/
structure Waiting where
  why  : Hold
  cmd  : Instr
  deriving DecidableEq, Repr

/-- An ATS invalidation: PASID, page, and the ops (Crag, dispatch number) with accesses through its translation under way (R449). -/
structure Inval where
  pasid : Nat
  page  : Nat
  ops   : List (Nat × Nat)
  deriving DecidableEq, Repr

/-- The data plane: everything a macro-op, a memory access or a Summit can reach. -/
structure Work where
  summits : Tab Summit
  crags   : Tab Crag       -- by logical number
  belays  : Tab Belay
  posts   : List Post
  sched   : Sched
  tens    : Tab Ten
  slices  : Tab Slice
  chs     : Tab MemCh
  dram    : Mem            -- byte X of channel c at c * 2^35 + X (R340)
  spread  : Nat            -- SpreadFraction in force (R346)
  errs    : Tab (List (Nat × Byte)) -- symbol errors that stand in stored blocks: symbol 80 h + j, bits flipped (R352)
  lost    : List (Nat × Nat) -- ranges of X, first and bound, whose contents SpreadFraction left undefined (R346)
  lostRows : List Nat      -- spare rows, by channel * 4096 + row, left undefined with the rows remapped to them (R346)
  retired : List Nat       -- retired 4 KiB pages (R364)
  upds    : Tab UpdUnit
  mcast   : Tab (Option (List (Nat × Nat))) -- per group: members of the multicast that holds it (R107)
  od      : Tab Nat        -- working values of the objects, by key (R433)
  now     : W64            -- IT (R371)
  dstate  : DevState
  stopCause : Nat
  fuses   : Fuses
  cragMap : Tab Nat        -- CragMap entry of a logical Crag (R519)
  withdrawn : BitVec 16    -- SpursWithdrawn (R520)
  invals  : List Inval     -- ATS invalidations not yet completed (R449)
  ptlb    : Tab (List Tlb) -- translations cached by port p (p) and by Update Unit u (16 + u) (R395)
  remotes : List Remote
  nextTag : BitVec 12
  routes  : List (Nat × Nat) -- cached route entries (R463)
  bar2Acks : Nat           -- BAR2 writes not yet acknowledged (R280, R444)
  hostWait : List (Nat × HostWait) -- posts and reads of the host, each with the acknowledgements it still waits for (R280, R444)
  fenceDrop : W32          -- HOST_FENCEDROP
  fenceSeen : Bool         -- HOST_STAT.FENCE_DROP
  cplErr  : Bool           -- HOST_STAT.CPL_ERR
  priFail : Bool           -- HOST_STAT.PRI_FAIL
  epRx    : Bool           -- HOST_STAT.EP_RX
  hostGone : Bool          -- no host behind the PCIe port: PERST# asserted (R538), or the link down
  digests : List (Nat × W64 × BitVec 128) -- open and closed epoch digests: leader, epoch, sum (R485)
  suppress : W32           -- RP_SUPPRESS
  standby : Bool           -- TwinRole standby in Duplex: outputs suppressed (R480)
  duplex  : Bool           -- the pair is in Duplex mode (R475)
  share   : Bool           -- the pair is in Share mode
  mirror  : BitVec 16      -- tenancies whose writes a Duplex primary sends to its twin as COPY frames (R496)
  fwding  : Bool           -- a Duplex primary that forwards its inputs (R479)
  fwdData : List (Nat × Nat × List Byte × Bool) -- standby: forwarded stream blocks by Crag and channel (R479)
  ports   : Tab Port       -- 0-7 Traverse, 8 the Rope
  portsOn : BitVec 8       -- TravPortEnable as it took effect last (R429)
  cacheCfg : Nat × Nat     -- CacheEnable and CacheWayMask as they took effect last (R337, R429)
  loopQ   : List Frame     -- frames looped back inside the device that have not arrived yet (R465)
  faultQ  : List FaultMsg  -- messages their sources hold until accepted (R503)
  dropCe  : W32            -- FC_DROP_CE (R503)
  out     : List Out
  waiting : List Waiting   -- commands that wait, in arrival order (R315, R358, R444, R463, R479)
  hold    : Option Hold    -- the model's own: what the present command has met that it must wait for (log entry 16)
  again   : Bool           -- the model's own: the present command has waited, and its frame has passed its link (log entry 16)
  fresh   : Nat            -- the model's own: index of the next free value (log entry 4)
  deriving DecidableEq, Repr

/-! ## The control plane -/

/-- The fault collector (R508 to R510, Tables 17.4 and 17.5). -/
structure Collector where
  valid    : Bool
  overflow : Bool
  merged   : Nat
  first    : Option FaultMsg -- FC_FIRST; none reads as zeros
  fatalValid : Bool
  fatal    : Option FaultMsg
  cntCe    : W32
  cntCt    : W32
  cntFa    : W32
  ceIrq    : Bool
  fatalN   : Bool          -- FATAL_N asserted (driven low)
  tenLast  : Tab (Option FaultMsg) -- FaultTenLast
  tenSeq   : Tab W32       -- FaultTenSeq
  lastIrq  : Tab W64       -- IT plus one of the last raise of each vector (R505)
  deriving DecidableEq, Repr

/-- A log record (R511). -/
structure LogRec where
  msg : FaultMsg
  it  : W64
  rep : Nat
  deriving DecidableEq, Repr

/-- Basecamp's log (R511, R512, Table 17.6). -/
structure LogStore where
  openRecs : List LogRec   -- held open for 1 s of IT
  recs    : Tab (Option LogRec) -- written records by LogSeq
  next    : W64            -- number of the next record
  oldest  : W64
  dropped : W32
  deriving DecidableEq, Repr

/-- ITState of Table 12.4. -/
inductive ItSt where
  | free | acquiring | locked | holdover | expired | diverged
  deriving DecidableEq, Repr

/-- The IT unit (R371 to R380, Tables 12.4 and 12.6). The count itself is Work.now. -/
structure ItUnit where
  state   : ItSt
  offset  : Int            -- last offset measurement, ns, forward positive
  good    : Nat            -- consecutive measurements within 100 ns (R375)
  holdFor : Nat            -- ticks passed in HOLDOVER
  upHold  : Bool           -- UPSTREAM_HOLDOVER
  hops    : Nat
  upstream : BitVec 16     -- device ID of the neighbour followed
  slew    : Int            -- ps still to slew, 1 ps a tick (R380)
  refSec  : Option W64     -- ITRefSeconds once written: the second of the next pulse, or of the last one
  refNew  : Bool           -- no pulse has come since ITRefSeconds was written
  edgeAge : Nat            -- ticks passed since the last REF_1PPS edge (R375)
  syncAge : Nat            -- ticks passed since the last Sync accepted
  exchAge : Nat            -- ticks passed since the last exchange completed
  announceAge : Nat        -- ticks passed since the last Announce of the master followed
  ptpMaster : Option PtpMaster -- best master so far
  ptpT1   : Option Nat     -- receipt time of a two-step Sync that awaits Follow_Up
  ptpLastT1 : Nat
  ptpLastT2 : Nat
  ptpT3   : Option Nat     -- a Delay_Req sent
  ptpDelay : Int
  sysclk  : Bool           -- SYSCLK present
  lockedFor : Nat
  ppsHigh : Bool           -- TIME_PPS_OUT
  lowLatch : Tab W32       -- latched high halves of the 64-bit IT registers (R387)
  deriving DecidableEq, Repr

/-- An Event Table entry (R381, Table 12.3). -/
structure EvEntry where
  tick   : W64
  action : Nat
  ten    : Nat
  bcamp  : Bool
  arg0   : BitVec 16
  arg1   : W32
  period : W64
  rept   : W32
  deriving DecidableEq, Repr

/-- Event Table and snapshots (R381 to R385). A snapshot keeps the counters as they were: the whole data plane is
not copied, the shadow of each counter is held under its register or object key. -/
structure Events where
  table   : Tab EvEntry
  missed  : W32
  snapTick : W64
  snapSeq : W32
  shadow  : Tab Nat        -- shadows by counter key
  view    : Tab Bool       -- SNAPVIEW of each bank
  deriving DecidableEq, Repr

/-- Configuration versions (R433, Table 14.11). -/
structure CfgStore where
  active  : Nat
  previous : Nat
  pending : Nat
  highest : Nat
  actVals : Tab Nat
  prevVals : Tab Nat
  pendVals : Tab Nat
  commitVals : Tab Nat     -- the working values that a commit is writing (R434)
  phase   : Nat
  lastResult : Nat
  pendKind : Nat
  probEnd : W64
  rbVersion : Nat
  rbCause : Nat
  confirmed : Bool         -- a CONFIRM written here during probation in Duplex (R441)
  twinConfirmed : Bool     -- the twin's CONFIRM was reported
  twinTriple : Option (Nat × BitVec 256 × W64) -- triple received from the twin
  decision : Option (Nat × W64) -- the primary's decision, 0 ACTIVATE or 1 REFUSE, and the tick it is for (R441)
  confirmedBefore : Bool   -- the activation under way opens no probation window (R438, R440)
  deriving DecidableEq, Repr

/-- Firmware (R540 to R543, Table 18.9). -/
structure Firmware where
  slot    : Nat            -- FwActiveSlot
  ver     : Tab W32        -- VERSION of the image that a slot holds from manufacture, once the boot ROM found it good
  minVersion : W32         -- FwMinVersion
  status  : Nat
  images  : Tab (List Byte) -- bytes written to each slot; empty while it holds its image from manufacture
  written : Nat            -- where the previous piece of FwImage ended
  nextSlot : Nat           -- slot named for the next boot
  trial   : Bool
  trialStart : W64
  booted  : Bool           -- the boot ROM has run since POR (phase 1)
  recovery : Bool          -- boot ROM recovery (R542)
  busy    : Bool           -- Basecamp is restarting (R522)
  dead    : Bool           -- Basecamp is held in reset (R522)
  restarts : List W64      -- IT of recent restarts
  deriving DecidableEq, Repr

/-- Power, clocks and resets (R524 to R539, Table 18.9). -/
structure Power where
  kDip    : Nat            -- requests for k of the three mechanisms (R528)
  kTherm  : Nat
  kPower  : Nat
  dips    : W32
  dipLast : W32
  temps   : Tab Int        -- ThermValue of each sensor
  hottest : Int
  warnArmed : Bool
  thermMs : Nat            -- readings since the last change of the thermal request
  throttled : Bool
  tripN   : Bool           -- THERMTRIP_N asserted
  tripLeft : Option Nat    -- ticks left of the hold-off after a trip (R531)
  railsUp : Bool           -- the Basecamp-switched rails are on
  offDue  : Bool           -- the rails are to be switched off when Basecamp runs again (R525, R531)
  railMv  : Tab (Option (BitVec 16)) -- voltage at which a rail failed, until its rail is enabled again
  dipAt   : W64            -- IT at which the present stretch of the dip mechanism began (R529)
  dipLow  : W64            -- IT of the last fall of VDD_CORE below warning
  limitAt : Option W64     -- IT of the power limit's last request (R532)
  limitCyc : Nat           -- CCLK cycles suppressed since (PWR_LIMIT)
  bootDue : Bool           -- phases 1 and 2 of bring-up have not run since POR (R544)
  resetCause : Nat
  powerNow : W32
  pkgEnergy : W64
  pkgFrac : Nat            -- microjoules carried to the next millisecond
  selfTest : BitVec 288    -- SelfTestResult
  perst   : Bool           -- PERST# asserted
  deriving DecidableEq, Repr

/-- A mailbox (R422, Table 14.6). -/
structure Mailbox where
  busy      : Bool
  done      : Bool
  malformed : Bool
  overrun   : Bool
  irq       : W32
  data      : Mem
  dbRefused : Bool         -- DB_STAT
  dbDiscarded : Bool
  dbRings   : BitVec 16
  deriving DecidableEq, Repr

/-- The host port (R424, R427, R445, R451, R567). -/
structure HostPort where
  sel     : Tab W32        -- select s of a bank at 32 bank + s
  selWr   : Tab (BitVec 16) -- WRITES
  held    : Tab W32        -- held low halves by bank and offset (R567)
  boxes   : Tab Mailbox    -- 0 the BAR0 mailbox, t + 1 the doorbell page of tenancy t
  dbEnable : BitVec 16
  bar2Base : W64
  bar2Log : Nat            -- log2 of the BAR2 size the host chose, 30-36 (R442)
  msixTab : Mem            -- the MSI-X table of BAR4
  pba     : W64
  pcieUp  : Bool
  pcieSt  : Nat            -- PT_STATUS.STATE of the PCIe window
  width   : Nat
  speed   : Nat
  cfgSpace : Mem           -- configuration space bytes that differ from reset
  downEvt : Bool
  d3hot   : Bool           -- the function is in D3hot: memory-space decoding has stopped (R442)
  perstAt : W64            -- IT when PERST# was last deasserted (R547)
  deriving DecidableEq, Repr

/-- The twin protocol (R474 to R499, Table 16.8). -/
structure Twin where
  role    : Nat            -- 0 none, 1 primary, 2 standby, 3 orphaned
  pair    : Nat            -- 0 UNPAIRED, 1 PAIRED, 2 DEGRADED, 3 RESILVERING, 4 MISMATCH
  term    : W64
  seatConf : Bool
  twinMode : Option Nat    -- the mode the twin reported
  lastLease : W64          -- IT of the last LEASE received
  leaseSent : W64          -- IT of the last LEASE sent
  query   : Bool
  queryAt : W64
  paired  : BitVec 16      -- TwinPairedTen
  agreed  : Tab W64        -- TwinAgreedEpoch of each party
  sentDig : List (Nat × W64) -- closed digests already sent
  rxDig   : List (Nat × W64 × BitVec 128 × W64) -- closed digests received and when
  closedAt : List (Nat × W64 × W64) -- epochs closed here: leader, epoch, tick
  mism    : Tab Nat        -- per tenancy: IT plus one at which its self-test after a mismatch began; 0 none (R488)
  myTest  : Tab (Option Bool)
  hisTest : Tab (Option Bool)
  detached : Bool
  copyAt  : Nat            -- resilver copy position
  odFrag  : List Byte      -- fragments of a forwarded OD message (R481)
  deriving DecidableEq, Repr

/-- Management port, spare counts and odd pins (R419, R516, R554, R565). -/
structure Misc where
  mgmtKey   : List Byte    -- MgmtKey; cannot be read
  mgmtKeyId : BitVec 16
  mgmtLastSeq : W64
  mgmtAuthFail : W32
  mgmtResp  : List Byte    -- stored response to the message of MgmtLastSeq
  usageKey  : List Byte
  usageKeyId : BitVec 16
  bankUsed  : Tab Nat      -- SpareBankUsed
  cragUsed  : Tab Nat      -- SpareCragUsed, per die
  spareDead : List Nat     -- physical spares that failed or are in use
  ridgeUsed : Tab Nat      -- SpareRidgeUsed, by subindex
  ridgeGrp  : Tab Nat      -- failures per lane group: 1 spare in use, 2 half width
  travUsed  : BitVec 8
  ropeUsed  : Nat
  flashUsed : Nat
  flashWorn : Bool         -- a block failed when no spare was left (R523)
  pprUsed   : Tab Nat
  macTable  : List (BitVec 128 × BitVec 48)
  slaac     : List (BitVec 128)
  jtagIr    : JtagIr
  jtagDr    : List Bool
  smbus     : List Byte    -- last transaction received by the SMBus target
  pmbAlert  : Bool
  bankTimes : List (Nat × W64) -- IT of recent corrected events of each cache bank: die, group, position (R515)
  bankUe    : List Nat     -- cache banks that gave a CACHE_UE and have not been replaced (R515)
  meterIv   : W64          -- MeterInterval in use until the next close (R403)
  holdover  : BitVec 16    -- HOLDOVER, EXPIRED, DIVERGED or STEP seen in the open usage interval of each tenancy
  expired   : BitVec 16
  diverged  : BitVec 16
  deriving DecidableEq, Repr

/-- The whole machine, and the commands that wait for it, first in, first out. -/
structure State where
  pending : List Instr
  work    : Work
  fc      : Collector
  log     : LogStore
  it      : ItUnit
  ev      : Events
  cfg     : CfgStore
  fw      : Firmware
  pwr     : Power
  host    : HostPort
  twin    : Twin
  misc    : Misc
  deriving DecidableEq, Repr

/-! ## Reset values

Reset here is POR (R536, R539): the device is in Init, its Basecamp-switched rails are off, and BRING_UP has not yet
run. Where a table of spec/ gives a reset value it is that value; every value the spec does not give is in log entry 1
(zero, empty or false unless said there). -/

def Queue.reset : Queue := { ents := [], head := 0, tail := 0 }

def Comparator.reset : Comparator :=
  { configured := false, ctr := 0, rel := 0, fromLast := false, value := 0 }

def FrontEnd.reset : FrontEnd :=
  { flight := [], fifo := [], rp := 0, loops := [], skip := 0, counts := [], cmps := [], peak := 0, frozen := false,
    region := 0, chain := [], chainLeft := 0, chainSel := [], nextN := 0, seqDisp := 0, seqAu := 0, seqEu := 0 }

def Region.reset : Region :=
  { state := 0, lateTol := false, lateLimit := false, seq := 0, limit := 0, tol := 0, timer := 0, waitAu := 0,
    waitEu := 0, blocked := 0, qdl := 0 }

def ExecRegs.reset : ExecRegs :=
  { fflags := 0, fcw := 0, fbusy := 0, reconf := true, gstate := 0, gtail := false, gopc := 0, gseq := 0, spth := 0,
    gsparse := 0, gdense := 0, gguard := 0, vstate := 0, vmembers := 0, vopc := 0, vseq := 0, vflags := 0,
    vlanef := [], vbusy := 0, vrsel := 0 }

def AccessRegs.reset : AccessRegs :=
  { gthState := 0, gthOpc := 0, gthSeq := 0, gthPois := false, hubTh := 0, hubSeg := 0, hubCtr := 0, hubInl := 0,
    gin := 0, gout := 0, goutst := 0, embState := 0, embOpc := 0, embSeq := 0, embPois := false, embGen := 0,
    embTable := 0, embDef := 0, euSkip := 0, euPois := 0, migRef := 0, embCold := 0, bAbandoned := false,
    bTimeout := false, bRange := false, tSlotBusy := false, tDoneEmpty := false, tReturned := false, tTaken := 0,
    bivCyc := 0 }

def Chan.reset : Chan :=
  { state := 0, opc := 0, seq := 0, poisonSeen := false, pfFail := false, op := 0, desc := 0, descPois := false, next := 0, blk := 0,
    blks := 0, hdr := 0, hdrPois := false, storePos := 0, cur := 0, idxAt := none, pack := [], packPois := [],
    packAt := 0, src := [], srcPois := false, tileIn := false, ledgeAt := 0, done := 0, faultVa := 0, pos := [], idxPos := 0, owed := [], pages := [],
    since := 0, asked := false }

def Crag.reset : Crag :=
  { fe := FrontEnd.reset, ops := [], queues := [], ledge := [], lpois := [], zmap := [], vregs := [], vpois := [],
    chans := [], region := Region.reset, ex := ExecRegs.reset, ac := AccessRegs.reset, slots := [], tlb := [],
    cntAu := 0, cntEu := 0, epoch := 0, bivouac := false, idle := 0, refused := false, marked := false,
    ceTimes := [], credits := 0, contrib := [] }

/-- Summit s after reset leads a party of its own Spur (Tables 2.10 and 2.12). -/
def Summit.reset (s : Nat) : Summit :=
  { state := .reset, lead := s, spurs := BitVec.ofNat 16 (2 ^ s), pc := 0, xs := [], mtvec := 0, mepc := 0,
    mcause := 0, mtval := 0, mstatus := 0, mscratch := 0, mie := 0, minstret := 0, mcycle := 0, imem := [], dmem := [],
    issue := [], tmask := [], credits := [], sums := [], sumPois := [], sentNo := 0, sumSent := [], sumDone := [],
    reds := [], stall := none, wacks := 0, imemSrc := 0, dmemSrc := 0, imemLen := 0, dmemLen := 0, pcStart := 0,
    loadErr := false, cfgRefused := false, brk := false, issued := 0, stallCyc := 0, tlb := [], runHeld := false,
    haltReq := false }

def Belay.reset : Belay :=
  { value := 0, sat := false, refused := false, abandoned := false, lastSig := 0, lastIt := 0, waiters := [] }

def Sched.reset : Sched :=
  { ready := [], delay := [], takers := [], lastTook := [], nextSeq := 0, elig := [], trWr := 0, trDropped := 0 }

/-- A tenancy after reset: tenancy 0 is ACTIVE, the others FREE (Table 13.1). -/
def Ten.reset (t : Nat) : Ten :=
  { state := if t = 0 then 1 else 0, holds := false, deferred := false, preempt := false, resets := 0,
    resetsAtClose := 0, activeCyc := 0, bivCyc := 0, energy := 0, energyFrac := 0, lent := 0, borrowed := 0, lentFrac := 0, borrowedFrac := 0, dram := [],
    dramMs := 0, ridge := 0, trav := 0, rope := 0, slice := 0, shadow := [], startIt := 0, partialIv := true,
    recSeq := 0, records := [] }

def Slice.reset : Slice :=
  { lines := [], data := [], plru := [], wpmS := false, enabled := false, sweep := false, dirtyRef := false,
    refused := false, lost := false, waySweep := 0, wayInit := 0, wayEn := 0, wayPwr := 0, noAlloc := 0, wayRet := 0, undef := 0, cmoAddr := [],
    cmoLen := [], cmoBusy := false, cmoDone := false, cmoRefused := false, cmoBank := 0, cmoOp := 0, cmoWay := none, cmoPend := [], cmoWb := 0, cmoDrop := 0,
    hits := 0, ce := 0, ue := 0, miss := [], pf := [], wb := [], grpMap := [], fills := [] }

/-- A channel after reset is untrained; MC_MARK reads 0x77, MC_TG_SEED and MC_TG_STRIDE read 1 (Table 11.8). -/
def MemCh.reset : MemCh :=
  { state := 0, trained := false, due := false, dueSince := 0, emerg := false, trainFail := false, refused := false, mark := [], ce := 0,
    ue := 0, lastErr := 0, rmIdx := 0, remaps := [], spareUsed := [], lastPause := 0, tgCtrl := 0, tgBusy := false,
    tgDone := false, tgFail := false, tgRefused := false, tgBase := 0, tgLen := 0, tgSeed := 1, tgStride := 1,
    tgCount := 0, tgErrs := 0, tgFirst := 0, tgPinLo := 0, tgPinHi := 0, pinCe := [], pinTimes := [], rowTimes := [],
    lastTrain := 0, trainTemp := 0, rowsHeld := [], wq := [], retrain := false, holdAt := 0, temp := 0, again := false, chCe := 0, chUe := 0, pprQueue := [],
    hpprUsed := [], resetN := false }

def UpdUnit.reset : UpdUnit := { queue := [], migs := [], rowsDone := 0, slotBytes := 0, served := 0 }

/-- A full part, SEAT 0, no test mode, its test fuse blown at shipment (R514); the serial number is per part. -/
def Fuses.reset : Fuses :=
  { gradeC := false, gradeN := false, gradeP := false, gradeS := false, seat := false, testMode := false,
    testFuseIntact := false, serial := 0 }

def Port.reset : Port :=
  { state := 0, lanes := 0, spares := 0, half := false, downEvt := false, neigh := none, neighSeat := false, tx := 0,
    rx := 0, crcErr := 0, replay := 0, discard := 0, fwdBytes := 0, copyBytes := 0, credit := [], waitQ := [], sent := [],
    txSeq := 0, rxSeq := 0, owed := [], ackDue := false, askDue := false, linkDue := false, asking := false, sentT1 := 0 }

def Work.reset : Work :=
  { summits := [], crags := [], belays := [], posts := [], sched := Sched.reset, tens := [], slices := [], chs := [],
    dram := [], spread := 0, errs := [], lost := [(0, 2 ^ 35)], lostRows := [], retired := [], upds := [], mcast := [], od := [], now := 0, dstate := .init,
    stopCause := 0, fuses := Fuses.reset, cragMap := [], withdrawn := 0, invals := [], ptlb := [], remotes := [], nextTag := 0,
    routes := [], bar2Acks := 0, hostWait := [], fenceDrop := 0, fenceSeen := false, cplErr := false, priFail := false, epRx := false, hostGone := true,
    digests := [], suppress := 0, standby := false, duplex := false, share := false,
    mirror := 0, fwding := false, fwdData := [], ports := [], portsOn := 0, cacheCfg := (1, 0xFFFF), loopQ := [], faultQ := [], dropCe := 0, out := [], waiting := [],
    hold := none, again := false, fresh := 0 }

def Collector.reset : Collector :=
  { valid := false, overflow := false, merged := 0, first := none, fatalValid := false, fatal := none, cntCe := 0,
    cntCt := 0, cntFa := 0, ceIrq := false, fatalN := false, tenLast := [], tenSeq := [], lastIrq := [] }

def LogStore.reset : LogStore := { openRecs := [], recs := [], next := 0, oldest := 0, dropped := 0 }

def ItUnit.reset : ItUnit :=
  { state := .free, offset := 0, good := 0, holdFor := 0, upHold := false, hops := 0, upstream := 0, slew := 0,
    refSec := none, refNew := false, edgeAge := 0, syncAge := 0, exchAge := 0, announceAge := 0, ptpMaster := none, ptpT1 := none, ptpLastT1 := 0, ptpLastT2 := 0, ptpT3 := none,
    ptpDelay := 0, sysclk := true, lockedFor := 0, ppsHigh := false, lowLatch := [] }

/-- A free entry (R381: ACTION 0 is free). -/
def EvEntry.free : EvEntry :=
  { tick := 0, action := 0, ten := 0, bcamp := false, arg0 := 0, arg1 := 0, period := 0, rept := 0 }

def Events.reset : Events :=
  { table := [], missed := 0, snapTick := 0, snapSeq := 0, shadow := [], view := [] }

/-- Flash that holds version 1, made from the defaults and active without probation (R433). -/
def CfgStore.reset : CfgStore :=
  { active := 1, previous := 0, pending := 0, highest := 1, actVals := [], prevVals := [], pendVals := [], commitVals := [], phase := 0,
    lastResult := 0, pendKind := 0, probEnd := 0, rbVersion := 0, rbCause := 0, confirmed := false,
    twinConfirmed := false, twinTriple := none, decision := none, confirmedBefore := false }

def Firmware.reset : Firmware :=
  { slot := 0, ver := [], minVersion := 0, status := 0, images := [], written := 0, nextSlot := 0, trial := false,
    trialStart := 0, booted := false, recovery := false, busy := false, dead := false, restarts := [] }

def Power.reset : Power :=
  { kDip := 8, kTherm := 8, kPower := 8, dips := 0, dipLast := 0, temps := [], hottest := 0, warnArmed := true,
    thermMs := 0, throttled := false, tripN := false, tripLeft := none, railsUp := false, offDue := false, railMv := [],
    dipAt := 0, dipLow := 0, limitAt := none, limitCyc := 0, bootDue := true, resetCause := 0,
    powerNow := 0, pkgEnergy := 0, pkgFrac := 0, selfTest := 0, perst := true }

def Mailbox.reset : Mailbox :=
  { busy := false, done := false, malformed := false, overrun := false, irq := 0, data := [], dbRefused := false,
    dbDiscarded := false, dbRings := 0 }

def HostPort.reset : HostPort :=
  { sel := [], selWr := [], held := [], boxes := [], dbEnable := 0xFFFF, bar2Base := 0, bar2Log := 30, msixTab := [],
    pba := 0, pcieUp := false, pcieSt := 0, width := 0, speed := 0, cfgSpace := [], downEvt := false,
    d3hot := false, perstAt := 0 }

def Twin.reset : Twin :=
  { role := 0, pair := 0, term := 0, seatConf := false, twinMode := none, lastLease := 0, leaseSent := 0, query := false, queryAt := 0,
    paired := 0, agreed := [], sentDig := [], rxDig := [], closedAt := [], mism := [], myTest := [], hisTest := [],
    detached := false, copyAt := 0, odFrag := [] }

def Misc.reset : Misc :=
  { mgmtKey := [], mgmtKeyId := 0, mgmtLastSeq := 0, mgmtAuthFail := 0, mgmtResp := [], usageKey := [],
    usageKeyId := 0, bankUsed := [], cragUsed := [], spareDead := [], ridgeUsed := [], ridgeGrp := [], travUsed := 0,
    ropeUsed := 0, flashUsed := 0, flashWorn := false, pprUsed := [], macTable := [], slaac := [], jtagIr := .idcode, jtagDr := [],
    smbus := [], pmbAlert := false, bankTimes := [], bankUe := [], meterIv := 600000000, holdover := 0, expired := 0,
    diverged := 0 }

/-- The machine right after POR. -/
def State.reset : State :=
  { pending := [], work := Work.reset, fc := Collector.reset, log := LogStore.reset, it := ItUnit.reset,
    ev := Events.reset, cfg := CfgStore.reset, fw := Firmware.reset, pwr := Power.reset, host := HostPort.reset,
    twin := Twin.reset, misc := Misc.reset }

/-! ## Outcomes other than a next state -/

/-- Faults of the model. The block reports its own faults as messages and goes on, so no command stops the machine
with a fault; the one constructor names what would, and no meaning raises it. Safe: nothing is claimed of it. -/
inductive Fault where
  /-- Raised by no meaning. Safe. -/
  | machineCheck
  deriving DecidableEq, Repr

/-- Refusals. -/
inductive Refusal where
  /-- The command's meaning is not written yet. Safe: nothing is claimed of it. -/
  | notModelled (mnemonic : String)
  /-- Raised by every command that names a unit by number when the block has no unit of that number at all (a Crag
  above 255, a Summit above 15): there is no such command on the part. Safe: nothing is claimed of it. -/
  | noSuchUnit (what : String) (num : Nat)
  deriving DecidableEq, Repr

end Sys2Proof.Machine
end

