-- ==== Sys2Proof/Machine/Ops.lean ====
section
/-! DEFINITION. The named operations over the block's units: reading and replacing one unit, numbering and ownership
(R5, R18, R38, R389), the values of objects, free values, outputs, and raising a fault (R500 to R503). -/

namespace Sys2Proof.Machine

open Host

/-! ## Units -/

def cragD : Nat → Crag := fun _ => Crag.reset
def summitD : Nat → Summit := Summit.reset
def tenD : Nat → Ten := Ten.reset
def sliceD : Nat → Slice := fun _ => Slice.reset
def chD : Nat → MemCh := fun _ => MemCh.reset
def belayD : Nat → Belay := fun _ => Belay.reset
def updD : Nat → UpdUnit := fun _ => UpdUnit.reset
def queueD : Nat → Queue := fun _ => Queue.reset
def chanD : Nat → Chan := fun _ => Chan.reset
def cmpD : Nat → Comparator := fun _ => Comparator.reset
def portD : Nat → Port := fun _ => Port.reset
def boxD : Nat → Mailbox := fun _ => Mailbox.reset
def evD : Nat → EvEntry := fun _ => EvEntry.free
def slotD : Nat → Option Task := fun _ => none
/-- Each credit starts at 64 after reset (R45). -/
def creditD : Nat → Nat := fun _ => 64

def getCrag (w : Work) (c : Nat) : Crag := Tab.get cragD w.crags c
def setCrag (w : Work) (c : Nat) (x : Crag) : Work := { w with crags := Tab.set cragD w.crags c x }
def getSummit (w : Work) (n : Nat) : Summit := Tab.get summitD w.summits n
def setSummit (w : Work) (n : Nat) (x : Summit) : Work := { w with summits := Tab.set summitD w.summits n x }
def getTen (w : Work) (t : Nat) : Ten := Tab.get tenD w.tens t
def setTen (w : Work) (t : Nat) (x : Ten) : Work := { w with tens := Tab.set tenD w.tens t x }
def getSlice (w : Work) (d : Nat) : Slice := Tab.get sliceD w.slices d
def setSlice (w : Work) (d : Nat) (x : Slice) : Work := { w with slices := Tab.set sliceD w.slices d x }
def getCh (w : Work) (c : Nat) : MemCh := Tab.get chD w.chs c
def setCh (w : Work) (c : Nat) (x : MemCh) : Work := { w with chs := Tab.set chD w.chs c x }
def getBelay (w : Work) (b : Nat) : Belay := Tab.get belayD w.belays b
def setBelay (w : Work) (b : Nat) (x : Belay) : Work := { w with belays := Tab.set belayD w.belays b x }
def getUpd (w : Work) (u : Nat) : UpdUnit := Tab.get updD w.upds u
def setUpd (w : Work) (u : Nat) (x : UpdUnit) : Work := { w with upds := Tab.set updD w.upds u x }

def getPort (w : Work) (p : Nat) : Port := Tab.get portD w.ports p
def setPort (w : Work) (p : Nat) (x : Port) : Work := { w with ports := Tab.set portD w.ports p x }

def getQueue (x : Crag) (q : Nat) : Queue := Tab.get queueD x.queues q
def setQueue (x : Crag) (q : Nat) (v : Queue) : Crag := { x with queues := Tab.set queueD x.queues q v }
def getChan (x : Crag) (h : Nat) : Chan := Tab.get chanD x.chans h
def setChan (x : Crag) (h : Nat) (v : Chan) : Crag := { x with chans := Tab.set chanD x.chans h v }
def getSlot (x : Crag) (n : Nat) : Option Task := Tab.get slotD x.slots n
def setSlot (x : Crag) (n : Nat) (v : Option Task) : Crag := { x with slots := Tab.set slotD x.slots n v }

/-- Replaces one op of a Crag by its dispatch number. -/
def setOp (x : Crag) (o : Op) : Crag := { x with ops := x.ops.map fun p => if p.n = o.n then o else p }

def findOp (x : Crag) (n : Nat) : Option Op := x.ops.find? fun p => p.n = n

/-! ## Object values -/

/-- The working value of an object (R433). -/
def od (w : Work) (idx : Nat) (sub : Nat := 0) (sel : Nat := 0) : Nat := Tab.get odDefault w.od (okey idx sub sel)

def setOd (w : Work) (idx sub sel v : Nat) : Work := { w with od := Tab.set odDefault w.od (okey idx sub sel) v }

/-- Device ID of this device. -/
def devId (w : Work) : Nat := od w 0x1300

/-! ## Numbering -/

/-- Logical Crags of the part (R5). -/
def cragCount (w : Work) : Nat := if w.fuses.gradeC then 224 else 256

/-- Logical Crags of one Spur (R18). -/
def perSpur (w : Work) : Nat := if w.fuses.gradeC then 14 else 16

def spurOf (w : Work) (c : Nat) : Nat := c / perSpur w

/-- The Crag die of a logical Crag, a Spur or a Summit. -/
def dieOfSpur (s : Nat) : Nat := if s < 8 then 0 else 1
def dieOf (w : Work) (c : Nat) : Nat := dieOfSpur (spurOf w c)

/-- CragMap as built (log entry 17): logical Crag L of a die takes the physical index that equals its number within
the die; logical numbers the part does not have are absent. -/
def cragMapD (gradeC : Bool) : Nat → Nat := fun c =>
  let n := if gradeC then 112 else 128
  if 2 * n ≤ c then 0xFFFF else c / n * 256 + c % n

/-- The CragMap entry of a logical Crag (R519). -/
def cragPhys (w : Work) (c : Nat) : Nat := Tab.get (cragMapD w.fuses.gradeC) w.cragMap c

/-- A logical Crag that is in service. -/
def cragPresent (w : Work) (c : Nat) : Bool := decide (c < cragCount w) && decide (cragPhys w c ≠ 0xFFFF)

/-- Members of a mask of n bits, ascending. -/
def maskList (n m : Nat) : List Nat := (List.range n).filter fun i => m / 2 ^ i % 2 = 1

/-- Logical Crags of a Spur. -/
def spurCrags (w : Work) (s : Nat) : List Nat := (List.range (perSpur w)).map fun i => perSpur w * s + i

/-- The leading Summit of the party a Spur belongs to (R38). -/
def leaderOf (w : Work) (spur : Nat) : Nat := (getSummit w spur).lead

/-- The Spurs of the party a Summit leads. -/
def partySpurs (w : Work) (lead : Nat) : List Nat := maskList 16 (getSummit w lead).spurs.toNat

/-- The Crags of a party (R40). -/
def partyCrags (w : Work) (lead : Nat) : List Nat := (partySpurs w lead).flatMap (spurCrags w)

def leaderOfCrag (w : Work) (c : Nat) : Nat := leaderOf w (spurOf w c)

/-! ## Tenancies -/

/-- TenSpurs of a tenancy 1 to 15. -/
def tenSpursObj (w : Work) (t : Nat) : Nat := od w 0x4003 0 t

/-- The tenancy 1 to 15, ACTIVE or RESETTING, that names a Spur; else tenancy 0 (R389). -/
def tenOfSpur (w : Work) (s : Nat) : Nat :=
  match (List.range 16).find? fun t =>
      decide (t ≠ 0) && decide ((getTen w t).state ≠ 0) && decide (tenSpursObj w t / 2 ^ s % 2 = 1) with
  | some t => t
  | none => 0

def tenOfCrag (w : Work) (c : Nat) : Nat := tenOfSpur w (spurOf w c)

/-- The Spurs of a tenancy; tenancy 0 has those that no other names (R389). -/
def tenSpurs (w : Work) (t : Nat) : List Nat := (List.range 16).filter fun s => tenOfSpur w s = t

def tenCrags (w : Work) (t : Nat) : List Nat := (tenSpurs w t).flatMap (spurCrags w)

/-- Leading Summits of a tenancy's parties. -/
def tenLeaders (w : Work) (t : Nat) : List Nat := (tenSpurs w t).filter fun s => leaderOf w s = s

/-- Whether a tenancy holds its slice (R397). -/
def hasSlice (w : Work) (t : Nat) : Bool :=
  decide ((getTen w t).state = 1) && (decide (od w 0x400F 0 t = 0) || (getTen w t).holds)

/-- A tenancy whose Summits step and whose Crags start ops (R398, R488). -/
def canRun (w : Work) (t : Nat) : Bool := hasSlice w t && !(getTen w t).preempt

/-- Whether x lies in count numbers from base, modulo m (R389). -/
def inRange (m base count x : Nat) : Bool := decide ((x + m - base % m) % m < count)

/-- The owned Belay range of a tenancy. -/
def ownsBelay (w : Work) (t b : Nat) : Bool := inRange 65536 (od w 0x4006 0 t) (od w 0x4007 0 t) b

/-- The tenancy that owns a Belay, and whether any does. An owner is a tenancy that is not FREE. -/
def belayOwner (w : Work) (b : Nat) : Option Nat :=
  (List.range 16).find? fun t => decide ((getTen w t).state ≠ 0) && ownsBelay w t b

/-- A grant of Table 13.2 that allows an act on a Belay; bit 33 posts, bit 34 waits. -/
def grantAllows (g bitNo b : Nat) : Bool :=
  decide (bitsN g bitNo 1 = 1) && inRange 65536 (bitsN g 0 16) (bitsN g 16 17) b

/-- Whether a tenancy may post to (bit 33) or wait on (bit 34) a Belay (R268, R389). -/
def mayBelay (w : Work) (t bitNo b : Nat) : Bool :=
  ownsBelay w t b || (List.range 4).any fun k => grantAllows (od w 0x4008 (k + 1) t) bitNo b

/-- The tenancy's flow range (R292). -/
def ownsFlow (w : Work) (t f : Nat) : Bool := inRange 1048576 (od w 0x4009 0 t) (od w 0x400A 0 t) f

/-! ## Outputs and free values -/

/-- Puts an output. -/
def emit (w : Work) (o : Out) : Work := { w with out := w.out ++ [o] }

/-- The next free value, and the state that has used it (log entry 4). -/
def freeVal (w : Work) : W64 × Work := (Config.freeValue w.fresh, { w with fresh := w.fresh + 1 })

/-! ## Faults -/

/-- SRC (R501): die, unit type, index. -/
def srcCode (die typ idx : Nat) : BitVec 16 := BitVec.ofNat 16 (die * 8192 + typ * 256 + idx)

def srcCrag (w : Work) (c : Nat) : BitVec 16 := srcCode (cragPhys w c / 256 % 2) 0 (cragPhys w c % 256)
def srcSummit (s : Nat) : BitVec 16 := srcCode (dieOfSpur s) 1 s
def srcSlice (d : Nat) : BitVec 16 := srcCode (2 + d) 5 0
/-- The Port die of a channel (Table 1.1). -/
def srcCh (c : Nat) : BitVec 16 := srcCode (if c < 12 then 6 else 7) 6 c
def srcUpd (u : Nat) : BitVec 16 := srcCode (if u < 4 then 6 else 7) 7 u
def srcBelay (b : Nat) : BitVec 16 := srcCode (if b < 32768 then 0 else 1) 3 0
def srcSched (l : Nat) : BitVec 16 := srcCode (l % 2) 2 0
def srcPcie : BitVec 16 := srcCode 6 8 0
def srcPort (p : Nat) : BitVec 16 := srcCode (if p < 4 then 6 else 7) 9 p
def srcRope : BitVec 16 := srcCode 7 10 0
def srcBasecamp : BitVec 16 := srcCode 6 11 0
def srcSentinel : BitVec 16 := srcCode 7 12 0
def srcIt : BitVec 16 := srcCode 6 13 0
def srcPower : BitVec 16 := srcCode 6 14 0
/-- A thermal sensor on its die (R530). -/
def srcTherm (n : Nat) : BitVec 16 :=
  srcCode (if n < 20 then 0 else if n < 40 then 1 else if n < 56 then 2 + (n - 40) / 4 else 6 + (n - 56) / 4 % 2) 15 n
/-- A voltage monitor on its die (Table 18.1); of each later pair, one on P0 and one on P1 (log entry 54). -/
def srcVolt (n : Nat) : BitVec 16 := srcCode (if n < 8 then n / 4 else if n < 12 then n - 6 else 6 + n % 2) 16 n
def srcEvent : BitVec 16 := srcCode 6 17 0
def srcConfig : BitVec 16 := srcCode 6 18 0
def srcFlash : BitVec 16 := srcCode 6 19 0

/-- The kinds whose class is corrected (Table 17.3). -/
def correctedKinds : List Nat :=
  [0x0B, 0x24, 0x30, 0x34, 0x35, 0x40, 0x42, 0x43, 0x48, 0x49, 0x4A, 0x50, 0x51, 0x5A, 0x5C, 0x60, 0x70, 0x73, 0x74,
   0x75, 0x77, 0x80, 0x82, 0x83, 0x85]

/-- The kinds whose class is fatal (Table 17.3). -/
def fatalKinds : List Nat := [0x26, 0x32, 0x52, 0x53, 0x81, 0x84]

/-- The single class of a kind (R502): 0 corrected, 1 contained, 2 fatal. -/
def kindClass (k : Nat) : Nat := if k ∈ correctedKinds then 0 else if k ∈ fatalKinds then 2 else 1

/-- The message of a fault detected now. -/
def faultMsg (now : W64) (src : BitVec 16) (kind ten addr : Nat) : FaultMsg :=
  { src := src, kind := BitVec.ofNat 8 kind, cls := BitVec.ofNat 2 (kindClass kind), ten := BitVec.ofNat 4 ten,
    addr := BitVec.ofNat 48 addr, it := BitVec.ofNat 48 now.toNat }

/-- A source takes a message to hold until the collector accepts it (R503): a fifth corrected one is discarded. -/
def holdFault (w : Work) (m : FaultMsg) : Work :=
  if m.cls = 0 ∧ 4 ≤ (w.faultQ.filter fun x => x.src = m.src && x.cls = 0).length then
    { w with dropCe := bumpSat w.dropCe 1 }
  else { w with faultQ := w.faultQ ++ [m] }

/-- A source detects a fault of a kind. -/
def raise (w : Work) (src : BitVec 16) (kind ten addr : Nat) : Work := holdFault w (faultMsg w.now src kind ten addr)

/-! ## Basecamp and due events -/

/-- Whether Basecamp answers and logs (R522, R542). -/
def basecampUp (s : State) : Bool := !s.fw.busy && !s.fw.dead && !s.fw.recovery

/-- Actions that Basecamp performs (R522). -/
def byBasecamp (a : Nat) : Bool := a = 2 || a = 3 || a = 5 || a = 8

/-- Whether an Event Table entry is due and may fire now (R383, R431). -/
def eventDue (s : State) (e : EvEntry) : Bool :=
  e.action ≠ 0 && decide (e.tick.toNat ≤ s.work.now.toNat) && s.work.dstate ≠ .init && !(byBasecamp e.action && !basecampUp s)

/-! ## Command outcomes -/

abbrev Res := Outcome State Fault Refusal

/-- A command that acts on the data plane only. -/
def onWork (s : State) (f : Work → Work) : Res := .next { s with work := f s.work }

/-- Marks the present command as one that waits, for the reason it met first. -/
def waitFor (w : Work) (h : Hold) : Work := if w.hold.isSome then w else { w with hold := some h }

/-- The source whose commands happen in the order they arrived: requests, responses and Rope-only frames of a port within their virtual
channel (R456, R479), and the host's TLPs (Table 15.1). -/
def sourceOf : Instr → Option Nat
  | .write p _ | .read p _ | .post p _ => some p
  | .readResp p _ | .writeAck p _ | .postAck p _ => some (16 + p)
  | .fwdHostRegister _ | .fwdBar2 _ | .fwdStreamData _ | .fwdOdFragment _ | .fwdTraverseRequest _ | .copy _ => some 32
  | .bar2Write .. | .bar2Read .. | .registerWrite .host .. | .registerWrite .hostEp .. => some 33
  | _ => none

/-- Whether an earlier command of a command's source waits. -/
def behind (w : Work) (cmd : Instr) : Bool :=
  (sourceOf cmd).isSome && w.waiting.any fun x => sourceOf x.cmd = sourceOf cmd

/-- What a command that leads from one data plane to another must wait for. -/
def waitsFor (cmd : Instr) (old new : Work) : Option Hold := if behind old cmd then some .order else new.hold

/-- A command that may have to wait (log entry 16): then nothing of it happens, and it joins those that wait. -/
def settle (cmd : Instr) (old new : Work) : Work :=
  match waitsFor cmd old new with
  | some h => { old with hold := none, waiting := old.waiting ++ [{ why := h, cmd := cmd }] }
  | none => new

/-- The same of a command on the whole state. A write of TravRouteInval that waits has dropped the entries already (R463). -/
def settleS (cmd : Instr) (old new : State) : State :=
  match waitsFor cmd old.work new.work with
  | some .routes => { old with work := settle cmd { old.work with routes := [], remotes := new.work.remotes } new.work }
  | some _ => { old with work := settle cmd old.work new.work }
  | none => new

/-- A command on the data plane whose accesses may meet a hold. -/
def onMem (cmd : Instr) (s : State) (f : Work → Work) : Res := .next { s with work := settle cmd s.work (f s.work) }

/-- A command of one Crag: a logical number the part can never have is refused by name. -/
def onCrag (cmd : Instr) (c : Nat) (s : State) (f : Work → Work) : Res :=
  if c < 256 then onMem cmd s f else .refused (.noSuchUnit "Crag" c)

/-- A command of one Summit. -/
def onSummit (cmd : Instr) (n : Nat) (s : State) (f : Work → Work) : Res :=
  if n < 16 then onMem cmd s f else .refused (.noSuchUnit "Summit" n)

/-- A command of one unit among count units. -/
def onUnit (what : String) (count n : Nat) (s : State) (f : State → State) : Res :=
  if n < count then .next (f s) else .refused (.noSuchUnit what n)

end Sys2Proof.Machine
end

