-- ==== Sys2Proof/Machine/Ecc.lean ====
section
/-! DEFINITION. DRAM behind the channels: the address map (R342 to R345), stored blocks with their remapped rows and poison
markers (R355, R362), decoding a block with the symbol errors that stand in it (R351, R352), and what a block's errors bring about: counts,
marks, failing rows and retired pages (R353, R354, R362 to R364). -/

namespace Sys2Proof.Machine

/-! ## The address map -/

/-- Eighths of a domain given to spread space by SpreadFraction (Table 11.3). -/
def spreadEighths : Nat → Nat
  | 0 => 0 | 1 => 1 | 2 => 2 | _ => 4

/-- The channel and channel address of a device physical address, or none for a hole or an unassigned address. -/
def mapPa (w : Work) (a : Nat) : Option (Nat × Nat) :=
  let e := spreadEighths w.spread
  if a < 0xC000000000 then
    let d := a / 0x2000000000
    let o := a % 0x2000000000
    let q := o / 4096
    let x := q / 4 * 4096 + o % 4096
    if 0x2000000 + e * 0x100000000 ≤ x then some (4 * d + q % 4, x) else none
  else if 0x10000000000 ≤ a ∧ a < 0x10000000000 + e * 0x1800000000 then
    let s := a - 0x10000000000
    let p := s / 4096
    some (p % 24, 0x2000000 + p / 24 * 4096 + s % 4096)
  else none

/-! ## Stored bytes -/

/-- A byte of DRAM that nothing has written: zero (log entry 2), or undefined where SpreadFraction moved it between
spaces, in its spare row too where its row is remapped (R346, log entry 12). -/
def dramD (lost : List (Nat × Nat)) (rows : List Nat) : Nat → Byte := fun k =>
  if lost.any (fun r => decide (r.1 ≤ k % 2 ^ 35) && decide (k % 2 ^ 35 < r.2)) ||
      (decide (k % 2 ^ 35 < 0x2000000) && decide (k / 2 ^ 35 * 4096 + k % 2 ^ 35 / 8192 ∈ rows)) then Config.lostByte k
  else 0

def dramKey (c x : Nat) : Nat := c * 2 ^ 35 + x

def dramGet (w : Work) (c x : Nat) : Byte := Tab.get (dramD w.lost w.lostRows) w.dram (dramKey c x)
def dramSet (w : Work) (c x : Nat) (b : Byte) : Work :=
  { w with dram := Tab.set (dramD w.lost w.lostRows) w.dram (dramKey c x) b }

/-- Where a block of a remapped rank row lies: its spare row (R362); rank rows below 4096 are the spare rows. -/
def remapX (m : MemCh) (x : Nat) : Nat :=
  match m.remaps.find? fun e => e.2.valid && decide (e.2.row = x / 8192) with
  | some e => 8192 * e.2.spare + x % 8192
  | none => x

/-- The marker pattern of a poisoned block (R355). -/
def markerByte (n : Nat) : Byte := BitVec.ofNat 8 (0x5A + 0x25 * n)
def marker : List Byte := (List.range 128).map markerByte
def zeros (n : Nat) : List Byte := List.replicate n 0

/-- The 128 bytes stored for a block. -/
def rawBlock (w : Work) (c x : Nat) : List Byte := (List.range 128).map fun i => dramGet w c (x + i)

def putRaw (w : Work) (c : Nat) : Nat → List Byte → Work
  | _, [] => w
  | x, b :: bs => putRaw (dramSet w c x b) c (x + 1) bs

/-- Symbol errors of a stored block: those of the devices that a read of it has shown stand until the block is written (log entry
117). -/
def errD : Nat → List (Nat × Byte) := fun _ => []
def errsAt (w : Work) (c x : Nat) : List (Nat × Byte) := Tab.get errD w.errs (dramKey c x / 128)
def setErrs (w : Work) (c x : Nat) (l : List (Nat × Byte)) : Work := { w with errs := Tab.set errD w.errs (dramKey c x / 128) l }

/-- A block written whole at its place in DRAM: its symbols are coded anew. -/
def putBlock (w : Work) (c x : Nat) (bs : List Byte) : Work := setErrs (putRaw w c x bs) c x []

/-- Errors that a read shows beside those that stand. -/
def joinErrs (old new : List (Nat × Byte)) : List (Nat × Byte) := (old.filter fun e => new.all fun n => n.1 ≠ e.1) ++ new

/-! ## Decoding (R351, R352) -/

/-- Symbols of codeword h of a block, as numbers. -/
def codeword (bs : List Byte) (h : Nat) : List Nat := rsEncode (((bs.drop (64 * h)).take 64).map (·.toNat))

/-- Errors on a codeword: entry (80 h + j, b) flips the bits b of symbol j of codeword h. -/
def withErrors (h : Nat) (err : List (Nat × Byte)) (r : List Nat) : List Nat :=
  err.foldl (fun r e => if e.1 / 80 = h ∧ e.1 < 160 then setAt r (e.1 % 80) (r.getD (e.1 % 80) 0 ^^^ e.2.toNat) else r) r

/-- The device that drives symbol j (R339). -/
def symDev (j : Nat) : Nat := j / 16

/-- What a codeword decodes to: the 64 data symbols and the corrected positions, or none. -/
def decodeWord (r : List Nat) (marked : Nat) : Option (List Nat × List Nat) :=
  let erased := if marked < 5 then (List.range 16).map fun i => 16 * marked + i else []
  (rsDecode r erased).map fun d => (d.1.take 64, d.2)

/-- An error of codeword h outside the marked device: the block is reported as ECC_UE (R354). -/
def beyondMark (h : Nat) (err : List (Nat × Byte)) (marked : Nat) : Bool :=
  decide (marked < 5) && err.any fun e => e.1 / 80 = h && e.1 < 160 && e.2 ≠ 0 && symDev (e.1 % 80) ≠ marked

/-- Codeword h of a block's bytes, decoded with these errors. -/
def decodeHalf (raw : List Byte) (marked : Nat) (err : List (Nat × Byte)) (h : Nat) : Option (List Nat × List Nat) :=
  if beyondMark h err marked then none else decodeWord (withErrors h err (codeword raw h)) marked

/-- Positions corrected in a codeword; none in one that cannot be decoded. -/
def fixesOf (d : Option (List Nat × List Nat)) : List Nat := d.elim [] (·.2)

/-- Outcome of reading a block: data and poison, corrected symbols of each codeword, and whether it was uncorrectable. -/
structure EccRead where
  data  : List Byte
  poison : Bool
  fix0  : List Nat
  fix1  : List Nat
  ue    : Bool

def rankOf (x : Nat) : Nat := bitsN x 17 1
def markOf (m : MemCh) (rank : Nat) : Nat := Tab.get (fun _ => 7) m.mark rank

/-- A block as decoded: zeros with poison where it decodes to the marker, with or without correction (R355). -/
def delivered (bs : List Byte) (fix0 fix1 : List Nat) : EccRead :=
  if bs = marker then { data := zeros 128, poison := true, fix0 := fix0, fix1 := fix1, ue := false }
  else { data := bs, poison := false, fix0 := fix0, fix1 := fix1, ue := false }

/-- Reads the block stored at an address of a channel, with the mark that applies to the block and these symbol errors (R352, R354,
R355). A codeword corrected beside one that cannot be decoded keeps its corrected positions, which count (R353). -/
def decodeAt (w : Work) (c x marked : Nat) (err : List (Nat × Byte)) : EccRead :=
  let raw := rawBlock w c x
  if err = [] then delivered raw [] []
  else
    match decodeHalf raw marked err 0, decodeHalf raw marked err 1 with
    | some a, some b => delivered ((a.1 ++ b.1).map fun n => (BitVec.ofNat 8 n : Byte)) a.2 b.2
    | a, b => { data := zeros 128, poison := true, fix0 := fixesOf a, fix1 := fixesOf b, ue := true }

/-- The mark that applies to what lies at a place of a channel, spare rows included: its rank's (R354). -/
def markAt (m : MemCh) (y : Nat) : Nat := markOf m (rankOf y)

/-- The block at channel address x as its controller reads it. -/
def eccRead (w : Work) (c x : Nat) : EccRead :=
  let m := getCh w c
  decodeAt w c (remapX m x) (markAt m (remapX m x)) (errsAt w c (remapX m x))

/-- The errors of a block, with those that this read of it shows. -/
def showErrs (w : Work) (c x : Nat) (err : List (Nat × Byte)) : Work :=
  let y := remapX (getCh w c) x
  setErrs w c y (joinErrs (errsAt w c y) (err.filter fun e => e.1 < 160 && e.2 ≠ 0))

/-! ## Counting (R353, R360, R362) -/

/-- Ticks of 86,400 s and of 1 s. -/
def day : Nat := 864000000000
def second : Nat := 10000000

/-- Times no older than a window. -/
def recent {α : Type} (now : W64) (win : Nat) (l : List (α × W64)) : List (α × W64) :=
  l.filter fun e => decide (now.toNat < e.2.toNat + win)

/-- Corrected symbols counted per pin. -/
def countPins (w : Work) (c : Nat) (js : List Nat) : Work :=
  let m := getCh w c
  let pins := js.foldl (fun t j => Tab.set (bvD 32) t j (bumpSat (Tab.get (bvD 32) t j) 1)) m.pinCe
  setCh w c { m with pinCe := pins, pinTimes := recent w.now day m.pinTimes ++ js.map fun j => (j, w.now) }

/-- Marks a device of a rank, unless the rank already has one (R354). -/
def markDev (w : Work) (c rank dev : Nat) : Work :=
  let m := getCh w c
  if markOf m rank ≠ 7 then w
  else
    let w := setCh w c { m with mark := Tab.set (fun _ => 7) m.mark rank dev }
    raise w (srcCh c) 0x42 0 (rank + dev * 2)

/-- The device that three or more corrected symbols of one codeword all lie on (R353). -/
def oneDevice (js : List Nat) : Option Nat :=
  match js with
  | [] => none
  | j :: _ => if js.all (fun k => symDev k = symDev j) then some (symDev j) else none

def autoMark (w : Work) (c rank : Nat) (js : List Nat) : Work :=
  match oneDevice js with
  | some d => if 3 ≤ js.length then markDev w c rank d else w
  | none => w

/-- A device whose pins gathered MarkCeLimit corrected symbols in a day (R353). -/
def limitMark (w : Work) (c rank : Nat) : Work :=
  let m := getCh w c
  (List.range 5).foldl (fun w d =>
    if od w 0x2348 ≤ (m.pinTimes.filter fun e => symDev e.1 = d).length then markDev w c rank d else w) w

/-- MC_LASTERR (Table 11.8). What it gives for an uncorrectable block's symbols the spec does not say: a free value. -/
def lastErrVal (w : Work) (x : Nat) (r : EccRead) : W64 × Work :=
  let blk := x / 128 * 128 % 2 ^ 35
  if r.ue then
    let (v, w) := freeVal w
    (BitVec.ofNat 64 (blk + 2 ^ 35 + fld v 0 12 * 2 ^ 36), w)
  else
    let first := if r.fix0 = [] then r.fix1.foldl min 79 else r.fix0.foldl min 79
    (BitVec.ofNat 64 (blk + first * 2 ^ 36 + min 31 (r.fix0.length + r.fix1.length) * 2 ^ 43), w)

/-! ## Rows and pages (R362 to R364) -/

/-- The device physical address of a channel address; none for the spare region. -/
def paOf (w : Work) (c x : Nat) : Option Nat :=
  if x < 0x2000000 then none
  else if 0x2000000 + spreadEighths w.spread * 0x100000000 ≤ x then
    some (c / 4 * 0x2000000000 + (x / 4096 * 4 + c % 4) * 4096 + x % 4096)
  else some (0x10000000000 + ((x - 0x2000000) / 4096 * 24 + c) * 4096 + x % 4096)

/-- Retires the page of a failing block (R364); a full filter leaves it in use. -/
def retirePage (c : Nat) (w : Work) (x : Nat) : Work :=
  match paOf w c x with
  | none => w
  | some a =>
    if a / 4096 ∈ w.retired || 16384 ≤ w.retired.length then w
    else raise { w with retired := w.retired ++ [a / 4096] } (srcCh c) 0x49 0 (a / 4096 * 4096)

/-- Retires each page that holds one of these blocks (R364). -/
def retirePages (w : Work) (c : Nat) (xs : List Nat) : Work := xs.foldl (retirePage c) w

def freeSpare (m : MemCh) : Option Nat := (List.range 4096).find? fun i => !decide (i ∈ m.spareUsed)

def remapD : Nat → Remap := fun _ => { valid := false, pending := false, row := 0, spare := 0, dev := 0, remaps := 0 }

def freeEntry (m : MemCh) : Option Nat :=
  (List.range 4096).find? fun i => !(Tab.get remapD m.remaps i).valid

def entryOf (m : MemCh) (row : Nat) : Option (Nat × Remap) := m.remaps.find? fun e => e.2.valid && decide (e.2.row = row)

/-- What was corrected in a rank row within a day (R362). -/
def rowRecent (w : Work) (m : MemCh) (row : Nat) : List ((Nat × Nat) × W64) :=
  (recent w.now day m.rowTimes).filter fun e => e.1.1 / 8192 = row

/-- Blocks of a rank row that were corrected within a day (R362). -/
def failBlocks (w : Work) (m : MemCh) (row : Nat) : List Nat := ((rowRecent w m row).map fun e => e.1.1)

/-- The device that the corrected symbols of a row's blocks within a day lie on, those of a last read js among them; 7 none (R362). -/
def rowDev (w : Work) (m : MemCh) (row : Nat) (js : List Nat) : Nat :=
  match ((rowRecent w m row).map fun e => e.1.2) ++ (if js = [] then [] else [(oneDevice js).getD 7]) with
  | [] => 7
  | d :: ds => if ds.all (fun k => k = d) then d else 7

/-- Corrected blocks of a row forgotten: what lies there now is another row (R362, R363). -/
def dropRow (m : MemCh) (row : Nat) : MemCh := { m with rowTimes := m.rowTimes.filter fun e => e.1.1 / 8192 ≠ row }

/-- A rank row fails (R362): it is held for its copy, or the pages of its failing blocks are retired when no entry or spare row is
free (R364). -/
def rowFails (w : Work) (c x : Nat) (js : List Nat) : Work :=
  let m := getCh w c
  let row := x / 8192
  let dev := rowDev w m row js
  let bad := failBlocks w m row ++ [x]
  if m.rowsHeld.any (fun r => r.row = row) then
    setCh w c { m with rowsHeld := m.rowsHeld.map fun r => if r.row = row then { r with bad := r.bad ++ [x] } else r }
  else if (freeSpare m).isNone || ((entryOf m row).isNone && (freeEntry m).isNone) then retirePages w c bad
  else setCh w c { m with rowsHeld := m.rowsHeld ++ [{ row := row, dev := dev, bad := bad, on := false }] }

/-- Counts a corrected block; the corrected blocks of its rank row within a day, this one included. -/
def countRow (w : Work) (c x : Nat) (js : List Nat) : Work × Nat :=
  let m := getCh w c
  let w := setCh w c { m with rowTimes := recent w.now day m.rowTimes ++ [((x, (oneDevice js).getD 7), w.now)] }
  (w, (failBlocks w (getCh w c) (x / 8192)).length)

/-- The devices that a read's corrections mark, in the rank that the block lies in (R353). -/
def markReads (w : Work) (c rank : Nat) (r : EccRead) : Work :=
  limitMark (autoMark (autoMark w c rank r.fix0) c rank r.fix1) c rank

/-- Consequences of a block read for a tenancy (R352 to R355, R362): a block that decodes to the marker raises no fault. -/
def eccOutcome (w : Work) (c x ten : Nat) (r : EccRead) : Work :=
  let js := r.fix0 ++ r.fix1
  if !r.ue && js = [] then w
  else
    let y := remapX (getCh w c) x
    let marked := markAt (getCh w c) y
    let (le, w) := lastErrVal w x r
    let w := countPins w c js
    if r.ue then
      let m := getCh w c
      let w := setCh w c { m with ue := bump m.ue 1, chUe := bump m.chUe 1, lastErr := le }
      rowFails (markReads (raise w (srcCh c) 0x41 ten x) c (rankOf y) r) c x js
    else if js.all (fun j => symDev j = marked) then setCh w c { getCh w c with lastErr := le }
    else
      let m := getCh w c
      let w := setCh w c { m with lastErr := le }
      let w := if r.poison then w
        else raise (setCh w c { getCh w c with ce := bump m.ce 1, chCe := bump m.chCe 1 }) (srcCh c) 0x40 ten x
      let w := markReads w c (rankOf y) r
      let (w, n) := countRow w c x js
      if od w 0x2347 ≤ n then rowFails w c x [] else w

/-- A block read at its channel for a tenancy: the data, and what its errors bring about. -/
def chRead (w : Work) (c x ten : Nat) : Work × EccRead :=
  let r := eccRead w c x
  (eccOutcome w c x ten r, r)

/-- The write queue of a channel after it accepts a block (R348): 32 entries; when it is full its oldest entry has gone to DRAM. The
data stands in Work.dram from its acceptance on, since a read of the block is served from the entry. -/
def wqPush (m : MemCh) (x : Nat) : MemCh := { m with wq := m.wq.drop (m.wq.length - 31) ++ [x] }

/-- A whole block written by the controller. -/
def chPut (w : Work) (c x : Nat) (bs : List Byte) (poison : Bool) : Work :=
  let m := getCh w c
  putBlock (setCh w c (wqPush m x)) c (remapX m x) (if poison then marker else bs)

end Sys2Proof.Machine
end

