-- ==== Sys2Proof/Machine/Link.lean ====
section
/-! DEFINITION. The links of the Traverse ports and of the Rope (R456 to R458, R472, R473): frames as bits, their CRC-32C and link sequence
number, virtual channels and credit, acknowledgement and replay. Log entries 130 to 132. -/

namespace Sys2Proof.Machine

/-! ## Frames as bits (R458, Table 15.7) -/

def headerBits (f : Frame) : Nat :=
  flds [(0, f.typ % 16), (4, f.len % 4), (6, f.poison.toNat), (8, f.srcTen % 16), (12, b2n f.loc), (16, f.dst.toNat), (32, f.src.toNat),
        (48, f.route.toNat), (96, f.nhops % 32), (101, f.hop % 32), (112, f.tag.toNat), (124, f.status % 16), (128, f.addr.toNat),
        (176, f.first % 128), (183, f.nbytes % 128), (190, b2n f.part), (192, f.inc.toNat), (244, f.lseq.toNat)]

/-- Bytes of a frame on the wire. -/
def wireBytes (f : Frame) : Nat := 40 + 128 * f.len

/-- The payload blocks that LEN counts. -/
def payloadBytes (f : Frame) : List Byte := (padTo (128 * f.len) 0 f.payload).take (128 * f.len)

/-- One bit of CRC-32C, the polynomial 0x1EDC6F41 bit-reversed. -/
def crcBit (r : Nat) : Nat := if r % 2 = 1 then (r / 2) ^^^ 0x82F63B78 else r / 2

def crcByte (r : Nat) (b : Byte) : Nat := (List.range 8).foldl (fun r _ => crcBit r) (r ^^^ b.toNat)

/-- The register after a byte string. Its value is settled at each byte before the next is taken. -/
def crcRun (r : Nat) : List Byte → Nat
  | [] => r
  | b :: bs => match crcByte r b with
    | 0 => crcRun 0 bs
    | n + 1 => crcRun (n + 1) bs

/-- CRC-32C of a byte string: register of ones at first, complemented at last (log entry 130). -/
def crc32c (bs : List Byte) : BitVec 32 := ~~~ BitVec.ofNat 32 (crcRun (2 ^ 32 - 1) bs)

/-- The trailer's CRC-32C of header and payload. -/
def frameCrc (f : Frame) : BitVec 32 := crc32c (natLe 32 (headerBits f) ++ payloadBytes f)

/-- A frame of this device with every other field clear. -/
def blankFrame (w : Work) (typ dst : Nat) : Frame :=
  { typ := typ, len := 0, poison := 0, srcTen := 0, loc := false, dst := BitVec.ofNat 16 dst,
    src := BitVec.ofNat 16 (devId w), route := 0, nhops := 0, hop := 0, tag := 0, status := 0, addr := 0, first := 0,
    nbytes := 0, part := false, inc := 0, lseq := 0, payload := [], crc := 0 }

/-! ## Virtual channels and credit (R457, R473) -/

/-- The virtual channel of a frame type (Tables 15.8 and 16.1). -/
def vcOf (typ : Nat) : Nat :=
  if typ ≤ 3 then 0 else if typ ≤ 6 then 1 else if typ ≤ 8 then 2 else if typ ≤ 11 then 3 else 4

/-- Credit in bytes when the link comes up: 256 KiB for VC4. -/
def upCredit (vc : Nat) : Nat := if vc = 4 then 262144 else Config.vcCredit vc

/-- A port's link as it comes up, or after it went down: nothing under way, sequence numbers from 0. -/
def linkFresh (x : Port) : Port :=
  { x with credit := (List.range 5).map upCredit, waitQ := [], sent := [], txSeq := 0, rxSeq := 0, owed := [], ackDue := false,
           askDue := false, linkDue := false, asking := false, sentT1 := 0 }

/-- Adds to one virtual channel's bytes. -/
def addBytes (l : List Nat) (vc n : Nat) : List Nat := (List.range 5).map fun v => l.getD v 0 + (if v = vc then n else 0)

/-- A frame may be sent: its VC holds the credit, and the replay buffer has a place (log entry 131: LINK frames need none). -/
def room (x : Port) (f : Frame) : Bool :=
  decide (wireBytes f ≤ x.credit.getD (vcOf f.typ) 0) && (decide (f.typ = 8) || decide (x.sent.length < 64))

/-- STATE 2 of Tables 15.12 and 16.7. -/
def portUp (w : Work) (p : Nat) : Bool := (getPort w p).state = 2

/-- Up or retraining: frames are kept until it is up again (R455, R472). -/
def portLive (w : Work) (p : Nat) : Bool := portUp w p || (getPort w p).state = 3

/-- A timestamp: IT * 1,024 plus the fraction of the tick, which the model does not hold: a free value (log entry 4). -/
def stamp (w : Work) : Nat × Work :=
  let (v, w) := freeVal w
  ((w.now.toNat * 1024 + fld v 0 10) % 2 ^ 64, w)

/-- Bytes of a payload replaced. -/
def payloadPut (l : List Byte) (a : Nat) (bs : List Byte) : List Byte := l.take a ++ bs ++ l.drop (a + bs.length)

/-- A TIME frame takes its timestamp as its first block crosses the port (R460): T3 of a reply, T1 of a request, which the port keeps. -/
def stampSent (w : Work) (p : Nat) (f : Frame) : Work × Frame :=
  if f.typ ≠ 7 then (w, f)
  else
    let (t, w) := stamp w
    if (f.payload.getD 28 0).getLsbD 1 then (w, { f with payload := payloadPut f.payload 16 (natLe 8 t) })
    else (setPort w p { getPort w p with sentT1 := t + 1 }, { f with payload := payloadPut f.payload 0 (natLe 8 t) })

/-- Puts a frame on the wire: its LSEQ and CRC set, its credit used, kept for replay (R456). -/
def transmit (w : Work) (p : Nat) (f : Frame) : Work :=
  let (w, f) := stampSent w p f
  let x := getPort w p
  let f := { f with lseq := x.txSeq }
  let f := { f with crc := frameCrc f }
  let sent := x.sent ++ [f]
  emit (setPort w p { x with
    tx := bump x.tx (wireBytes f), txSeq := x.txSeq + 1, sent := sent.drop (sent.length - 64)
    credit := x.credit.set (vcOf f.typ) (x.credit.getD (vcOf f.typ) 0 - wireBytes f) }) (.frame p f)

/-- Whether a frame goes out at once: the link is up, it has room, and none of its VC waits before it. -/
def clearToSend (w : Work) (p : Nat) (f : Frame) : Bool :=
  portUp w p && room (getPort w p) f && !(getPort w p).waitQ.any fun g => vcOf g.typ = vcOf f.typ

/-- Sends a frame on a port, 8 the Rope, or leaves it waiting; false when the port is absent or down (R462). -/
def sendOn (w : Work) (p : Nat) (f : Frame) : Work × Bool :=
  if clearToSend w p f then (transmit w p f, true)
  else if portLive w p then
    let x := getPort w p
    (setPort w p { x with waitQ := x.waitQ ++ [f] }, true)
  else (w, false)

/-- Sends what waits on a port and may go; a frame of one VC never waits for another's (R457). -/
def flush (w : Work) (p : Nat) : Work :=
  if !portUp w p then w
  else
    let x := getPort w p
    x.waitQ.foldl (fun w f => (sendOn w p f).1) (setPort w p { x with waitQ := [] })

/-! ## LINK frames (R456, Table 15.8) -/

/-- What this device has to say to the far end. -/
def linkInfo (x : Port) : LinkInfo :=
  { credits := ((List.range 5).filter fun v => x.owed.getD v 0 ≠ 0).map fun v => (v, x.owed.getD v 0)
    ack := if x.ackDue then some (x.rxSeq - 1) else none
    replay := if x.askDue then some x.rxSeq else none }

/-- What a LINK frame says; one without a payload brings the device ID alone. -/
def linkRead (f : Frame) : LinkInfo :=
  if f.len = 0 then { credits := [], ack := none, replay := none }
  else
    let r := Config.linkReports f.payload
    { credits := r.1, ack := r.2.1, replay := r.2.2 }

/-- The LINK frame of a port: one payload block where it carries more than the device ID, as every one on the Rope does: SEAT and mode
(R474, R475). -/
def linkFrame (w : Work) (p : Nat) (x : Port) : Frame :=
  let l := linkInfo x
  let n := if p ≠ 8 ∧ l.credits = [] ∧ l.ack = none ∧ l.replay = none then 0 else 1
  { blankFrame w 8 0 with loc := true, len := n, payload := Config.linkPayload w.fuses.seat (od w 0x8100) l }

/-- Sends the LINK frame that is due, when VC2 has credit. -/
def linkSend (w : Work) (p : Nat) : Work :=
  let x := getPort w p
  let f := linkFrame w p x
  if x.linkDue && portUp w p && room x f then
    transmit (setPort w p { x with owed := [], ackDue := false, askDue := false, linkDue := false }) p f
  else w

/-- The buffer that a frame held is free: its credit returns (R457). A LINK frame's own credit travels with the next LINK frame, so that
the two ends do not answer each other without end (log entry 131). -/
def returnCredit (w : Work) (p : Nat) (f : Frame) : Work :=
  let x := getPort w p
  linkSend (setPort w p { x with owed := addBytes x.owed (vcOf f.typ) (wireBytes f), linkDue := x.linkDue || decide (f.typ ≠ 8) }) p

/-! ## Receipt (R456) -/

/-- A replay is asked for: for a gap once until a good frame comes, and for every bad frame. -/
def askReplay (w : Work) (p : Nat) (bad : Bool) : Work :=
  let x := getPort w p
  if x.asking && !bad then w else linkSend (setPort w p { x with asking := true, askDue := true, linkDue := true }) p

/-- The far end acknowledges frames up to one: they are not kept any more. -/
def takeAck (w : Work) (p : Nat) (q : BitVec 12) : Work :=
  let x := getPort w p
  if x.sent.any fun f => f.lseq = q then
    setPort w p { x with sent := (x.sent.dropWhile fun f => f.lseq ≠ q).drop 1 }
  else w

/-- The far end asks for the frames from one on: those kept are sent again, and counted (PT_REPLAY). -/
def takeReplay (w : Work) (p : Nat) (q : BitVec 12) : Work :=
  let x := getPort w p
  let again := x.sent.dropWhile fun f => f.lseq ≠ q
  let w := setPort w p { x with replay := bump x.replay again.length, tx := bump x.tx ((again.map wireBytes).sum) }
  again.foldl (fun w f => emit w (.frame p f)) w

/-- A LINK frame's acknowledgement and replay request, which act whatever its LSEQ (log entry 131). -/
def takeReports (w : Work) (p : Nat) (l : LinkInfo) : Work :=
  let w := match l.ack with
    | some q => takeAck w p q
    | none => w
  match l.replay with
  | some q => takeReplay w p q
  | none => w

/-- A LINK frame's credits; what waited may go. -/
def takeCredits (w : Work) (p : Nat) (l : LinkInfo) : Work :=
  let x := getPort w p
  setPort w p { x with credit := l.credits.foldl (fun t e => addBytes t e.1 e.2) x.credit
                       linkDue := x.linkDue || l.credits.any fun e => e.1 ≠ 2 }

/-- A frame crosses a link that is up: its bytes are counted and its CRC-32C and LSEQ checked. True when it is good and the next in order;
a frame already received is dropped, and a gap or a bad CRC asks for a replay. -/
def linkTake (w : Work) (p : Nat) (f : Frame) : Work × Bool :=
  let x := getPort w p
  let x := { x with rx := bump x.rx (wireBytes f) }
  if f.crc ≠ frameCrc f then (askReplay (setPort w p { x with crcErr := bump x.crcErr 1 }) p true, false)
  else if f.lseq = x.rxSeq then
    (setPort w p { x with rxSeq := x.rxSeq + 1, ackDue := true, asking := false, linkDue := x.linkDue || decide (f.typ ≠ 8) }, true)
  else if (f.lseq - x.rxSeq).toNat < 2048 then (askReplay (setPort w p x) p false, false)
  else (setPort w p { x with ackDue := true, linkDue := x.linkDue || decide (f.typ ≠ 8) }, false)

/-- A frame of a reserved type, of one that a Traverse port does not carry, or with a LEN that its type does not allow (R458, R459, R477; log
entry 131). -/
def reservedFrame (p typ : Nat) (f : Frame) : Bool :=
  p ≠ 9 && (f.typ = 0 || decide ((if p = 8 then 14 else 9) ≤ f.typ) || (decide (3 ≤ f.len) && typ ≠ 12))

/-- The frame of a row of the table: of the row's type, unless its own is reserved. -/
def rowFrame (p typ : Nat) (f : Frame) : Frame := if reservedFrame p typ f then f else { f with typ := typ }

/-- Counts a discarded frame on a port (R459, R462, R477). -/
def countDiscard (w : Work) (p : Nat) : Work :=
  let x := getPort w p
  setPort w p { x with discard := bump x.discard 1 }

/-- A frame command of a port that a link serves: what has crossed the link is acknowledged at once, happens now or waits, and its credit
returns when it has happened. A command that has waited does not cross its link again. -/
def onLink (cmd : Instr) (p : Nat) (f : Frame) (s : State) (g : State → State) : State :=
  if !s.work.again && !portUp s.work p then s
  else
    match if s.work.again then (s.work, true) else linkTake s.work p f with
    | (w, false) => { s with work := linkSend w p }
    | (w, true) =>
      let t := g { s with work := w }
      settleS cmd { s with work := linkSend w p } { t with work := returnCredit t.work p f }

end Sys2Proof.Machine
end

