-- ==== Sys2Proof/Machine/Memory.lean ====
section
/-! DEFINITION. Device memory as every agent reaches it (R24): the address map (R342 to R345), the channels with their
remapped rows and poison markers (R355, R362), and the cache slices in front of them (R310 to R321). A read or write of
one 128 B block is one operation here; wider accesses are made of them. -/

namespace Sys2Proof.Machine

/-- What an agent's request carries: memory priority class, tenancy charged, bypass hint, and whether it enters through a
Port die (one Ridge link more). -/
structure Req where
  cls    : Nat
  ten    : Nat
  bypass : Bool
  port   : Bool
  deriving DecidableEq, Repr

def req (cls ten : Nat) : Req := ⟨cls, ten, false, false⟩
def reqPort (cls ten : Nat) : Req := ⟨cls, ten, false, true⟩

/-! ## Holds and outages -/

/-- A channel whose spaces are offline (R361, R367). -/
def chOff (w : Work) (c : Nat) : Bool := (getCh w c).state = 4 || (getCh w c).state = 5

/-- A channel that serves no request now: untrained, training or held (R357, R358). -/
def chHeld (w : Work) (c : Nat) : Bool :=
  (getCh w c).state = 0 || (getCh w c).state = 1 || (getCh w c).state = 3

/-- The channels whose holds and outages an address shares: those of its domain, or all for spread space (R358, R361). -/
def spaceChans (a : Nat) : List Nat :=
  if a < 0xC000000000 then (List.range 4).map fun i => 4 * (a / 0x2000000000) + i else List.range 24

/-- What a slice finds before it looks an address up. -/
inductive PaStatus where
  | ok | hole | retired | offline
  deriving DecidableEq, Repr

def paStatus (w : Work) (a : Nat) : PaStatus :=
  if mapPa w a = none then .hole
  else if a / 4096 ∈ w.retired then .retired
  else if (spaceChans a).any (chOff w) then .offline
  else .ok

/-- The kind of fault of an access that performs nothing (R345, R361, R364). -/
def PaStatus.kind : PaStatus → Nat
  | .retired => 0x47
  | .offline => 0x45
  | _ => 0x46

/-! ## Channels -/

/-- Bytes moved at the channels (R401) for a tenancy and class. -/
def meterDram (w : Work) (r : Req) : Work :=
  let t := getTen w r.ten
  setTen w r.ten { t with dram := Tab.set (bvD 64) t.dram r.cls (bump (Tab.get (bvD 64) t.dram r.cls) 128),
                          dramMs := t.dramMs + 128 }

/-- Bytes moved over Ridge links (R401; log entry 18 gives the links an access crosses). -/
def meterRidge (w : Work) (t bytes : Nat) : Work :=
  let x := getTen w t
  setTen w t { x with ridge := bump x.ridge bytes }

/-- Whether a channel holds the requests to the space of an address (R358). -/
def spaceHeld (w : Work) (a : Nat) : Bool := (spaceChans a).any (chHeld w)

/-- Whether the rank row of an address is being copied (R362). -/
def rowHeld (w : Work) (a : Nat) : Bool :=
  match mapPa w a with
  | some (c, x) => (getCh w c).rowsHeld.any fun r => r.on && r.row = x / 8192
  | none => false

/-- The space of an address: domain 0 to 5, or 6 for spread space (R342). -/
def spaceOf (a : Nat) : Nat := if a < 0xC000000000 then a / 0x2000000000 else 6

/-- Whether two addresses lie in one rank row. -/
def sameRow (w : Work) (a b : Nat) : Bool :=
  match mapPa w a, mapPa w b with
  | some (c, x), some (d, y) => c = d && x / 8192 = y / 8192
  | _, _ => false

/-- A request that waits keeps those behind it waiting: of its space when a channel holds that, of its rank row while the row is copied,
of its line when it waits for a fill (R315, R358, R362). -/
def Waiting.blocks (w : Work) (a : Nat) (x : Waiting) : Bool :=
  match x.why with
  | .fill pa => pa / 512 = a / 512
  | .space pa => spaceOf pa = spaceOf a
  | .row pa => sameRow w pa a
  | _ => false

/-- What a request to an address waits for behind one that waits. -/
def Waiting.behind (a : Nat) (x : Waiting) : Hold :=
  match x.why with
  | .fill _ => .fill a
  | .row _ => .row a
  | _ => .space a

/-- What a request to an address must wait for before it enters its channel: the channels of its space, the copy of its row, or a request
before it. -/
def holdOf (w : Work) (a : Nat) : Option Hold :=
  if spaceHeld w a then some (.space a)
  else if rowHeld w a then some (.row a)
  else (w.waiting.find? (Waiting.blocks w a)).map (Waiting.behind a)

/-- Whether a request to an address waits: for its channels, or behind one that waits. -/
def heldAt (w : Work) (a : Nat) : Bool := (holdOf w a).isSome

/-- The line (A[47:9]) at which a request waits. -/
def Waiting.line (x : Waiting) : Option Nat :=
  match x.why with
  | .fill pa | .space pa | .row pa => some (pa / 512)
  | _ => none

/-- Whether a request to the line of an address waits in its slice: those behind it keep their order (R315). -/
def lineWaits (w : Work) (a : Nat) : Bool := w.waiting.any fun x => x.line = some (a / 512)

/-- Frame payload bytes sent or received for a tenancy (Table 13.6). -/
def meterTrav (w : Work) (t bytes : Nat) : Work :=
  let x := getTen w t
  setTen w t { x with trav := bump x.trav bytes }

/-- Marks the present command as one that waits when its address meets a hold. -/
def meetHold (w : Work) (a : Nat) : Work :=
  match holdOf w a with
  | some h => waitFor w h
  | none => w

/-- A block read at its channel for a request; the address has status ok. -/
def devRead (w : Work) (r : Req) (a : Nat) : Work × List Byte × Bool :=
  match mapPa w a with
  | none => (w, zeros 128, true)
  | some (c, x) => let (w, e) := chRead (meterDram (meetHold w a) r) c x r.ten; (w, e.data, e.poison)

/-- A whole block written at its channel for a request. -/
def devWrite (w : Work) (r : Req) (a : Nat) (bs : List Byte) (poison : Bool) : Work :=
  match mapPa w a with
  | none => w
  | some (c, x) => chPut (meterDram (meetHold w a) r) c x bs poison

/-- Part of a block written at its channel: the controller reads it, merges and writes it, and poison stays (R108, R320); both transfers
are counted (R401). -/
def devMerge (w : Work) (r : Req) (a off : Nat) (bs : List Byte) (poison : Bool) : Work :=
  match mapPa w a with
  | none => w
  | some (c, x) =>
    let (w, e) := chRead (meterDram (meterDram (meetHold w a) r) r) c x r.ten
    chPut w c x (e.data.take off ++ bs ++ e.data.drop (off + bs.length)) (e.poison || poison)

/-! ## Slices -/

/-- The slice that owns an address (R312). -/
def sliceOf (a : Nat) : Nat :=
  ((List.range 19).foldl (fun d k => d ^^^ bitsN a (9 + 2 * k) 2) 0) ^^^ bitsN a 47 1

def setOf (a : Nat) : Nat := a / 2048 % 40960
def tagOf (a : Nat) : Nat := a / 2048 / 40960
def sectorOf (a : Nat) : Nat := a / 128 % 4

/-- The address of a sector from its slice's set, tag and line, given that bits 10:9 are those the hash needs. -/
def lineAddr (die set tag : Nat) : Nat :=
  let hi := (tag * 40960 + set) * 2048
  hi + (sliceOf hi ^^^ die) * 512

def sectorNone : Sector := { valid := false, dirty := false, poison := false }
def lineNone : Line := { tag := 0, sec := List.replicate 4 sectorNone }

/-- A line nothing has allocated: no valid sector, or undefined in a way powered on under WPM=S (R330). -/
def lineD (undef : BitVec 16) : Nat → Line := fun k =>
  if undef.getLsbD (k % 16) then
    let x := Config.wakeTag k
    { tag := x.1, sec := x.2.map fun e => { valid := e.1, dirty := e.2.1, poison := e.2.2 } }
  else lineNone

/-- Data of such a line. -/
def lineByteD (undef : BitVec 16) : Nat → Byte := fun k =>
  if undef.getLsbD (k / 512 % 16) then Config.wakeByte k else 0

def getLine (s : Slice) (set way : Nat) : Line := Tab.get (lineD s.undef) s.lines (16 * set + way)
def setLine (s : Slice) (set way : Nat) (l : Line) : Slice :=
  { s with lines := Tab.set (lineD s.undef) s.lines (16 * set + way) l }

def getSec (l : Line) (i : Nat) : Sector := l.sec.getD i sectorNone
def setSec (l : Line) (i : Nat) (x : Sector) : Line := { l with sec := setAt l.sec i x }

/-- Bytes of a sector. -/
def secData (s : Slice) (set way i : Nat) : List Byte :=
  (List.range 128).map fun b => Tab.get (lineByteD s.undef) s.data (512 * (16 * set + way) + 128 * i + b)

def putBytes (s : Slice) : Nat → List Byte → Slice
  | _, [] => s
  | k, b :: bs => putBytes { s with data := Tab.set (lineByteD s.undef) s.data k b } (k + 1) bs

def secPut (s : Slice) (set way i off : Nat) (bs : List Byte) : Slice :=
  putBytes s (512 * (16 * set + way) + 128 * i + off) bs

/-- Ways looked up: enabled, or disabled and still being swept, and not being initialised (R328, R329). -/
def looked (s : Slice) (way : Nat) : Bool := (s.wayEn ||| s.waySweep).getLsbD way && !s.wayInit.getLsbD way

/-- Ways a line may be allocated in (R318, R329, R331). -/
def allocatable (s : Slice) (way : Nat) : Bool :=
  s.wayEn.getLsbD way && !s.waySweep.getLsbD way && !s.wayRet.getLsbD way && !s.noAlloc.getLsbD way && !s.sweep

def lineValid (l : Line) : Bool := l.sec.any (·.valid)

/-- The way that holds a line. -/
def findWay (s : Slice) (set tag : Nat) : Option Nat :=
  (List.range 16).find? fun w => looked s w && lineValid (getLine s set w) && decide ((getLine s set w).tag = tag)

/-- Tree bit walk (R318; log entry 19): node n, span of ways lo to lo + size - 1. A clear bit points to the lower half;
a half with no allocatable way is passed over. -/
def plruPick (s : Slice) (bits : BitVec 15) : Nat → Nat → Nat → Nat → Nat
  | 0, _, lo, _ => lo
  | f + 1, n, lo, size =>
    let h := size / 2
    let lowOk := (List.range h).any fun i => allocatable s (lo + i)
    let highOk := (List.range h).any fun i => allocatable s (lo + h + i)
    let high := if bits.getLsbD n then highOk else !lowOk
    plruPick s bits f (2 * n + 1 + b2n high) (if high then lo + h else lo) h

/-- The tree after an access to a way: every node on its path points away from it. -/
def plruTouch (bits : BitVec 15) (way : Nat) : BitVec 15 :=
  let b3 := bitsN way 3 1
  let b2 := bitsN way 2 1
  let b1 := bitsN way 1 1
  let b0 := bitsN way 0 1
  let n1 := 1 + b3
  let n2 := 2 * n1 + 1 + b2
  let n3 := 2 * n2 + 1 + b1
  setFld (setFld (setFld (setFld bits 0 1 (1 - b3)) n1 1 (1 - b2)) n2 1 (1 - b1)) n3 1 (1 - b0)

def touch (s : Slice) (set way : Nat) : Slice :=
  { s with plru := Tab.set (bvD 15) s.plru set (plruTouch (Tab.get (bvD 15) s.plru set) way) }

/-- The way to allocate (R318); none when the set has no allocatable way. -/
def pickWay (s : Slice) (set : Nat) : Option Nat :=
  match (List.range 16).find? fun w => allocatable s w && !lineValid (getLine s set w) with
  | some w => some w
  | none =>
    if (List.range 16).any (allocatable s) then some (plruPick s (Tab.get (bvD 15) s.plru set) 4 0 0 16) else none

def bumpTab (t : Tab W64) (k n : Nat) : Tab W64 := Tab.set (bvD 64) t k (bump (Tab.get (bvD 64) t k) n)

/-- Writes one dirty sector to its channel, with its poison (R319), and counts it. -/
def wbSector (w : Work) (d : Nat) (r : Req) (set way i : Nat) : Work :=
  let s := getSlice w d
  let l := getLine s set way
  let x := getSec l i
  if x.valid && x.dirty then
    let a := lineAddr d set l.tag + 128 * i
    let w := setSlice w d { (setLine s set way (setSec l i { x with dirty := false })) with wb := bumpTab s.wb r.ten 1 }
    match paStatus w a with
    | .ok => meterRidge (devWrite w r a (secData s set way i) x.poison) r.ten 256
    | st => raise w (srcSlice d) st.kind r.ten a
  else w

/-- Writes every dirty sector of a line. -/
def wbLine (w : Work) (d : Nat) (r : Req) (set way : Nat) : Work :=
  (List.range 4).foldl (fun w i => wbSector w d r set way i) w

/-- Allocates a line, evicting a victim (R318, R319): the way it went to, none when no way is allocatable. -/
def allocLine (w : Work) (d : Nat) (r : Req) (set tag : Nat) : Work × Option Nat :=
  match pickWay (getSlice w d) set with
  | none => (w, none)
  | some way =>
    let w := wbLine w d r set way
    let s := getSlice w d
    (setSlice w d (touch (setLine s set way { lineNone with tag := tag }) set way), some way)

/-- Puts a sector into a line. -/
def putSector (w : Work) (d set way i : Nat) (bs : List Byte) (dirty poison : Bool) : Work :=
  let s := getSlice w d
  let s := setLine s set way (setSec (getLine s set way) i { valid := true, dirty := dirty, poison := poison })
  setSlice w d (secPut s set way i 0 bs)

/-- A fill in flight for the line of an address (R315). -/
def fillOf (s : Slice) (a : Nat) : Option Fill := s.fills.find? fun f => f.pa / 512 = a / 512

/-- Whether allocating a line would evict a dirty sector whose channel is held (R319). -/
def victimHeld (w : Work) (d set : Nat) : Bool :=
  let s := getSlice w d
  match pickWay s set with
  | none => false
  | some way =>
    let l := getLine s set way
    (List.range 4).any fun i => (getSec l i).valid && (getSec l i).dirty && heldAt w (lineAddr d set l.tag + 128 * i)

/-- Sectors of a line that are neither valid nor being filled. -/
def wanted (s : Slice) (n : Nat) : List Nat :=
  (List.range 4).filter fun i =>
    !(s.fills.any fun f => f.pa = n + 128 * i) &&
      match findWay s (setOf n) (tagOf n) with
      | some way => !(getSec (getLine s (setOf n) way) i).valid
      | none => true

/-- Fetches every sector of the next line that is not valid, at class 3 (R321). What would have to wait, for a hold or behind a fill of
the line, is put in flight; the prefetch is dropped when the owning slice has no free fill entry or is disabled, and in a
disable sweep, which allocates nothing (R331). -/
def prefetch (w : Work) (r : Req) (a : Nat) : Work :=
  let n := a / 512 * 512 + 512
  let d := sliceOf n
  let s := getSlice w d
  if r.bypass || !(bitsN (od w 0x2333) r.cls 1 = 1) || !(n / 4096 = a / 4096) || !s.enabled || s.sweep ||
      decide (4096 ≤ s.fills.length) || paStatus w n ≠ .ok then w
  else
    let is := wanted s n
    if heldAt w n || (fillOf s n).isSome || ((findWay s (setOf n) (tagOf n)).isNone && victimHeld w d (setOf n)) then
      let fs := is.map fun i => Fill.mk (n + 128 * i) r.ten true []
      setSlice w d { s with fills := s.fills ++ fs.take (4096 - s.fills.length) }
    else
      let r3 : Req := { r with cls := 3 }
      let (w, way) := match findWay s (setOf n) (tagOf n) with
        | some way => (w, some way)
        | none => allocLine w d r3 (setOf n) (tagOf n)
      match way with
      | none => w
      | some way =>
        is.foldl (fun w i =>
          let (w, bs, p) := devRead w r3 (n + 128 * i)
          let w := putSector w d (setOf n) way i bs false p
          let s := getSlice w d
          meterRidge (setSlice w d { s with pf := bumpTab s.pf r.ten 1 }) r.ten 256) w

/-- Counts a demand sector fetched from DRAM (Table 10.3). -/
def countMiss (w : Work) (d t : Nat) : Work :=
  let s := getSlice w d
  setSlice w d { s with miss := bumpTab s.miss t 1 }

def countHit (w : Work) (d set way : Nat) : Work :=
  let s := getSlice w d
  setSlice w d { (touch s set way) with hits := bump s.hits 1 }

/-- A demand fetch of a sector that misses (R316): the bytes, and where it was put. Beyond 4,096 fills in flight it waits (R315). -/
def missFetch (w : Work) (d : Nat) (r : Req) (a : Nat) (alloc : Bool) : Work × List Byte × Bool × Option Nat :=
  let s := getSlice w d
  let w := if 4096 ≤ s.fills.length then waitFor w (.fill a) else w
  let (w, way) := match findWay s (setOf a) (tagOf a) with
    | some way => (w, if alloc then some way else none)
    | none => if alloc then allocLine w d r (setOf a) (tagOf a) else (w, none)
  let (w, bs, p) := devRead (countMiss w d r.ten) r a
  match way with
  | none => (meterRidge w r.ten 128, bs, p, none)
  | some way => (meterRidge (putSector w d (setOf a) way (sectorOf a) bs false p) r.ten 256, bs, p, some way)

/-- Whether a request's address is served by lookup: the slice is enabled. -/
def lookupWay (s : Slice) (a : Nat) : Option Nat := if s.enabled then findWay s (setOf a) (tagOf a) else none

/-- The sector of an address, when its line holds it valid. -/
def hitWay (s : Slice) (a : Nat) : Option Nat :=
  match lookupWay s a with
  | some way => if (getSec (getLine s (setOf a) way) (sectorOf a)).valid then some way else none
  | none => none

/-- A request to a line with a fill in flight, or behind one that waits, waits (R315). -/
def meetFill (w : Work) (d a : Nat) : Work :=
  if (fillOf (getSlice w d) a).isSome || lineWaits w a then waitFor w (.fill a) else w

/-- A read of the block at an address through its slice (R316, R320, R345): data and poison. -/
def memRead (w : Work) (r : Req) (addr : Nat) : Work × List Byte × Bool :=
  let a := addr / 128 * 128
  let d := sliceOf a
  match paStatus w a with
  | .ok =>
    let s := getSlice w d
    let w := meterRidge (meetFill w d a) r.ten (if r.port then 128 else 0)
    match hitWay s a with
    | some way =>
      let x := getSec (getLine s (setOf a) way) (sectorOf a)
      (meterRidge (countHit w d (setOf a) way) r.ten 128, secData s (setOf a) way (sectorOf a), x.poison)
    | none =>
      if s.enabled then
        let (w, bs, p, _) := missFetch w d r a (!r.bypass)
        (prefetch w r a, bs, p)
      else
        let (w, bs, p) := devRead w r a
        (meterRidge w r.ten 128, bs, p)
  | st => (raise w (srcSlice d) st.kind r.ten a, zeros 128, true)

/-- A write that hits a valid sector: bytes from off, marked dirty; poison stays, but a whole sector takes the data's. A
slice in a disable sweep writes through as well (R331). -/
def writeHit (w : Work) (d : Nat) (r : Req) (a way off : Nat) (bs : List Byte) (poison : Bool) : Work :=
  let s := getSlice w d
  let l := getLine s (setOf a) way
  let x := getSec l (sectorOf a)
  let p := if bs.length = 128 then poison else x.poison || poison
  let s := setLine s (setOf a) way (setSec l (sectorOf a) { valid := true, dirty := !s.sweep, poison := p })
  let s := secPut s (setOf a) way (sectorOf a) off bs
  let w := countHit (setSlice w d s) d (setOf a) way
  if s.sweep then meterRidge (devWrite w r a (secData s (setOf a) way (sectorOf a)) p) r.ten 256 else w

/-- A write of bytes that lie in one block, from addr (R317, R320, R345). -/
def memWrite (w : Work) (r : Req) (addr : Nat) (bs : List Byte) (poison : Bool) : Work :=
  let a := addr / 128 * 128
  let off := addr % 128
  let d := sliceOf a
  let whole := bs.length = 128
  match paStatus w a with
  | .ok =>
    let s := getSlice w d
    let w := meterRidge (meetFill w d a) r.ten (if r.port then 256 else 128)
    match hitWay s a with
    | some way => writeHit w d r a way off bs poison
    | none =>
      if !s.enabled || s.sweep || r.bypass || (pickWay s (setOf a)).isNone && (lookupWay s a).isNone then
        meterRidge (if whole then devWrite w r a bs poison else devMerge w r a off bs poison) r.ten 256
      else if whole then
        match findWay s (setOf a) (tagOf a) with
        | some way => putSector w d (setOf a) way (sectorOf a) bs true poison
        | none =>
          match allocLine w d r (setOf a) (tagOf a) with
          | (w, some way) => putSector w d (setOf a) way (sectorOf a) bs true poison
          | (w, none) => meterRidge (devWrite w r a bs poison) r.ten 256
      else
        match missFetch w d r a true with
        | (w, old, p, some way) =>
          putSector w d (setOf a) way (sectorOf a) (old.take off ++ bs ++ old.drop (off + bs.length)) true (p || poison)
        | (w, _, _, none) => meterRidge (devMerge w r a off bs poison) r.ten 256
  | st => raise w (srcSlice d) st.kind r.ten a

/-! ## Accesses of any length -/

/-- The pieces of n bytes from an address, each in one block: address and length. -/
def pieces (a n : Nat) : List (Nat × Nat) :=
  (List.range ((a % 128 + n + 127) / 128)).map fun i =>
    let lo := max a ((a / 128 + i) * 128)
    (lo, min (a + n) ((a / 128 + i + 1) * 128) - lo)

/-- n bytes from a device physical address; poisoned when any block is. -/
def readPa (w : Work) (r : Req) (a n : Nat) : Work × List Byte × Bool :=
  (pieces a n).foldl (fun acc p =>
    let (w, bs, po) := acc
    let (w, b, q) := memRead w r p.1
    (w, bs ++ (b.drop (p.1 % 128)).take p.2, po || q)) (w, [], false)

/-- The block at an address as it stands, in the cache or at its channel. -/
def peekBlock (w : Work) (a : Nat) : List Byte × Bool :=
  let s := getSlice w (sliceOf a)
  match hitWay s a with
  | some way => (secData s (setOf a) way (sectorOf a), (getSec (getLine s (setOf a) way) (sectorOf a)).poison)
  | none =>
    match mapPa w a with
    | some (c, x) => let e := eccRead w c x; (e.data, e.poison)
    | none => (zeros 128, true)

/-- A COPY frame of one block (R477, Table 16.1). -/
def copyFrame (w : Work) (a : Nat) (bs : List Byte) (poison : Nat) : Frame :=
  { blankFrame w 13 0 with
    len := bs.length / 128, poison := BitVec.ofNat 2 poison, loc := true, addr := BitVec.ofNat 48 a, payload := bs }

/-- Sends a COPY frame over the Rope; its bytes are counted (Tables 13.6 and 16.6). With no VC4 credit the write waits (R497). -/
def sendCopy (w : Work) (t a : Nat) (bs : List Byte) (poison : Nat) : Work :=
  let f := copyFrame w a bs poison
  if !portLive w 8 then w
  else if !clearToSend w 8 f then waitFor w .credit
  else
    let w := meterRidge (transmit w 8 f) t (2 * bs.length)
    let x := getPort w 8
    let y := getTen w t
    setTen (setPort w 8 { x with copyBytes := bump x.copyBytes bs.length }) t { y with rope := bump y.rope bs.length }

/-- A write of an unpaired tenancy on a Duplex primary is sent to the twin as well (R496). -/
def mirrorOut (w : Work) (r : Req) (addr : Nat) : Work :=
  let a := addr / 128 * 128
  if w.mirror.getLsbD r.ten && paStatus w a = .ok then
    let (bs, po) := peekBlock w a
    sendCopy w r.ten a bs (b2n po)
  else w

/-- Bytes written from a device physical address, one block after another. -/
def writePa (w : Work) (r : Req) (a : Nat) (bs : List Byte) (poison : Bool) : Work :=
  (pieces a bs.length).foldl (fun w p =>
    mirrorOut (memWrite w r p.1 ((bs.drop (p.1 - a)).take p.2) poison) r p.1) w

end Sys2Proof.Machine
end

