-- ==== Sys2Proof/Machine/Cache.lean ====
section
/-! DEFINITION. The cache slices' own commands (R315 to R338): requests that reach a slice by themselves, fills in flight,
maintenance operations, way power, enabling and disabling, and bank sparing. -/

namespace Sys2Proof.Machine

open Host

/-! ## Requests at a slice -/

/-- A fill of the sector of an address is in flight. -/
def filling (s : Slice) (a : Nat) : Bool := s.fills.any fun f => f.pa = a

/-- Whether a read must be put in flight: its sector is absent and its channel is held. -/
def readWaits (w : Work) (pa : Nat) : Bool :=
  let a := pa / 128 * 128
  let s := getSlice w (sliceOf a)
  paStatus w a = .ok && (hitWay s a).isNone && s.enabled && heldAt w a

/-- A read request (R315, R316): served, or put in flight, or it joins a fill of its sector. Behind a fill of another sector of its line,
behind a request of its line that waits, and beyond 4,096 fills, it waits. -/
def cacheReadOp (w : Work) (pa cls ten : Nat) (bypass : Bool) : Work :=
  let a := pa / 128 * 128
  let d := sliceOf a
  let s := getSlice w d
  let q : FillReq := { cls := cls, ten := ten, bypass := bypass }
  if paStatus w a = .ok ∧ lineWaits w a = true then waitFor w (.fill a)
  else if paStatus w a = .ok ∧ filling s a = true then
    setSlice w d { s with fills := s.fills.map fun f => if f.pa = a then { f with reqs := f.reqs ++ [q] } else f }
  else if readWaits w pa && (fillOf s a).isNone then
    if s.fills.length < 4096 then
      setSlice w d { s with fills := s.fills ++ [{ pa := a, ten := ten, pre := false, reqs := [q] }] }
    else waitFor w (.fill a)
  else
    let (w, bs, p) := memRead w { cls := cls, ten := ten, bypass := bypass, port := false } a
    emit w (.cacheData a bs p)

/-- A request that sends a block to a channel whose write queue held 32 entries before it waits in its slice (R348). -/
def queueRoom (old new : Work) (a : Nat) : Work :=
  if (List.range 24).any fun c => 32 ≤ (getCh old c).wq.length && (getCh new c).wq ≠ (getCh old c).wq then waitFor new (.fill a)
  else new

def execCacheRead (pa cls ten : Nat) (bypass : Bool) (s : State) : Res :=
  onMem (.cacheRead pa cls ten bypass) s fun w =>
    queueRoom w (cacheReadOp w (pa % 2 ^ 48) (cls % 4) (ten % 16) bypass) (pa % 2 ^ 48)

/-- A write request (R317, R320): up to 128 bytes that lie in one block. -/
def execCacheWrite (pa cls ten : Nat) (bypass : Bool) (data : List Byte) (poison : Bool) (s : State) : Res :=
  onMem (.cacheWrite pa cls ten bypass data poison) s fun w =>
    let r : Req := { cls := cls % 4, ten := ten % 16, bypass := bypass, port := false }
    let a := pa % 2 ^ 48
    queueRoom w (writePa w r a (data.take (128 - a % 128)) poison) a

/-- The request that a waiting read makes. -/
def FillReq.req (q : FillReq) (bypass : Bool) : Req := { cls := q.cls, ten := q.ten, bypass := bypass, port := false }

/-- Data delivered to the requests that joined a fill: one sector was fetched, each is charged its own way over the Ridge. -/
def deliverJoined (a : Nat) (bs : List Byte) (p : Bool) (qs : List FillReq) (w : Work) : Work :=
  qs.foldl (fun w q => emit (meterRidge w q.ten 128) (.cacheData a bs p)) w

/-- Requests that wait on a demand fill served: the one that began it fetches the sector, into the cache unless all carry the bypass
hint, and is counted (R336); those that joined take the data. -/
def deliverFill (a : Nat) (qs : List FillReq) (w : Work) : Work :=
  match qs with
  | [] => w
  | q :: rest =>
    match memRead w (q.req (qs.all (·.bypass))) a with
    | (w, bs, p) => deliverJoined a bs p rest (emit w (.cacheData a bs p))

/-- Requests that wait on an address that went offline or was retired meanwhile: each ends as R345 lays down. -/
def failFill (a : Nat) (qs : List FillReq) (w : Work) : Work :=
  qs.foldl (fun w q => match memRead w (q.req q.bypass) a with
    | (w, bs, p) => emit w (.cacheData a bs p)) w

/-- A prefetched sector arrives (R321). -/
def prefetchFill (w : Work) (d : Nat) (f : Fill) : Work :=
  let r : Req := { cls := 3, ten := f.ten, bypass := false, port := false }
  let s := getSlice w d
  if paStatus w f.pa ≠ .ok || !s.enabled then w
  else
    let (w, way) := match findWay s (setOf f.pa) (tagOf f.pa) with
      | some way => (w, some way)
      | none => allocLine w d r (setOf f.pa) (tagOf f.pa)
    match way with
    | none => w
    | some way =>
      if (getSec (getLine (getSlice w d) (setOf f.pa) way) (sectorOf f.pa)).valid then w
      else
        let (w, bs, p) := devRead w r f.pa
        let w := putSector w d (setOf f.pa) way (sectorOf f.pa) bs false p
        let s := getSlice w d
        meterRidge (setSlice w d { s with pf := bumpTab s.pf f.ten 1 }) f.ten 256

/-- A fill completes and releases its requests (R315). The other fills of its line do not keep it waiting. -/
def endFill (w : Work) (d : Nat) (f : Fill) : Work :=
  let others := ((getSlice w d).fills.filter fun g => g.pa ≠ f.pa)
  let w := setSlice w d { getSlice w d with fills := others.filter fun g => g.pa / 512 ≠ f.pa / 512 }
  let w := if paStatus w f.pa ≠ .ok then failFill f.pa f.reqs w
    else if f.pre then deliverFill f.pa f.reqs (prefetchFill w d f)
    else deliverFill f.pa f.reqs w
  let s := getSlice w d
  setSlice w d { s with fills := s.fills ++ others.filter fun g => g.pa / 512 = f.pa / 512 }

/-! ## Lines of a slice -/

/-- Drops every entry of the ways a mask names: their lines are as the defaults for undef say. -/
def dropWays (s : Slice) (mask undef : BitVec 16) : Slice :=
  { s with lines := Tab.drop (fun k => mask.getLsbD (k % 16)) s.lines
           data := Tab.drop (fun k => mask.getLsbD (k / 512 % 16)) s.data
           undef := undef }

/-- Ways dropped with every tag invalid. -/
def clearWays (s : Slice) (mask : BitVec 16) : Slice := dropWays s mask (s.undef &&& ~~~mask)

/-- The sets and ways that a slice may hold valid lines in: those listed, and every set of an undefined way. -/
def occupied (s : Slice) : List (Nat × Nat) :=
  (s.lines.map fun e => (e.1 / 16, e.1 % 16)) ++
    ((List.range 16).filter fun w => s.undef.getLsbD w).flatMap fun w =>
      ((List.range 40960).filter fun k => !s.lines.any fun e => e.1 = 16 * k + w).map fun k => (k, w)

def lineDirty (l : Line) : Bool := l.sec.any fun x => x.valid && x.dirty
def dirtyCount (l : Line) : Nat := (l.sec.filter fun x => x.valid && x.dirty).length

/-- Lines of the ways of a mask that hold a dirty sector. -/
def dirtyLines (s : Slice) (mask : BitVec 16) : Nat :=
  ((occupied s).filter fun e => mask.getLsbD e.2 && lineDirty (getLine s e.1 e.2)).length

/-- Request of maintenance and sweeps (R347): class 2, tenancy 0. -/
def cmoReq : Req := req 2 0

/-- Dirty sectors of the ways of a mask written back. -/
def wbWays (w : Work) (d : Nat) (mask : BitVec 16) : Work :=
  ((occupied (getSlice w d)).filter fun e => mask.getLsbD e.2).foldl (fun w e => wbLine w d cmoReq e.1 e.2) w

/-- A hardware sweep of ways (R329): what a lookup finds in them is written back, and every tag is made invalid. A way that is
being initialised, or that was powered and not looked up, holds nothing to write back. -/
def sweepWays (w : Work) (d : Nat) (mask : BitVec 16) : Work :=
  let s := getSlice w d
  let w := wbWays w d (mask &&& (s.wayEn ||| s.waySweep) &&& ~~~s.wayInit)
  setSlice w d (clearWays (getSlice w d) mask)

/-! ## Maintenance (R322 to R327) -/

/-- The effect of CLEAN, INVALIDATE and CLEAN_INVALIDATE on one line, with the counts of the operation. -/
def cmoLine (op : Nat) (w : Work) (d set way : Nat) : Work :=
  let s := getSlice w d
  let n := dirtyCount (getLine s set way)
  if op = 2 then
    setSlice w d { (setLine s set way lineNone) with cmoDrop := bump s.cmoDrop n }
  else
    let w := wbLine w d cmoReq set way
    let s := getSlice w d
    let s := { s with cmoWb := bump s.cmoWb n }
    setSlice w d (if op = 3 then setLine s set way lineNone else s)

/-- ZERO_LINE on an owned line: allocated with four dirty zero sectors, or written to DRAM when the slice is disabled or has
no way for it (R318, R322, R323). A slice in a disable sweep writes through (R331). -/
def zeroLineAt (w : Work) (d a : Nat) : Work :=
  match paStatus w a with
  | .ok =>
    let s := getSlice w d
    let direct := fun (w : Work) => (List.range 4).foldl (fun w i => devWrite w cmoReq (a + 128 * i) (zeros 128) false) w
    let into := fun (w : Work) (way : Nat) (dirty : Bool) =>
      (List.range 4).foldl (fun w i => putSector w d (setOf a) way i (zeros 128) dirty false) w
    if !s.enabled then direct w
    else
      match findWay s (setOf a) (tagOf a) with
      | some way => if s.sweep then direct (into w way false) else into w way true
      | none =>
        if s.sweep then direct w
        else
          match allocLine w d cmoReq (setOf a) (tagOf a) with
          | (w, some way) => into w way true
          | (w, none) => direct w
  | st => raise w (srcSlice d) st.kind 0 a

/-- The owned lines of a range, first line and count in units of 512 B. -/
def ownedLines (d first n : Nat) : List Nat :=
  ((List.range n).map fun i => (first + i) % 2 ^ 39 * 512).filter fun a => sliceOf a = d

/-- Occupied lines of a slice whose address lies in a range. -/
def rangeLines (s : Slice) (d first n : Nat) : List (Nat × Nat) :=
  (occupied s).filter fun e =>
    let l := getLine s e.1 e.2
    lineValid l && looked s e.2 && inRange (2 ^ 39) first n (lineAddr d e.1 l.tag / 512)

/-- The effect of an operation on the line of an address, where the slice holds it. -/
def cmoVisit (op : Nat) (byWay : Option Nat) (w : Work) (d a : Nat) : Work :=
  if op = 4 then zeroLineAt w d a
  else
    match findWay (getSlice w d) (setOf a) (tagOf a) with
    | some k => if byWay.all (fun n => decide (n = k)) then cmoLine op w d (setOf a) k else w
    | none => w

/-- Lines (A[47:9]) with a fill in flight (R324). -/
def fillLines (s : Slice) : List Nat := (s.fills.map fun f => f.pa / 512).eraseDups

/-- Lines that an operation cannot visit yet: with a fill in flight, or with a request that reached the slice before and waits (R324). -/
def lateLines (w : Work) (d : Nat) : List Nat :=
  fillLines (getSlice w d) ++ (w.waiting.filterMap (·.line)).filter fun l => sliceOf (l * 512) = d

/-- A way's lines dropped, undefined tags too, but for those that the operation has still to visit. -/
def clearWay (s : Slice) (d way : Nat) : Slice :=
  let keep := (occupied s).filter fun e =>
    e.2 = way && lineValid (getLine s e.1 e.2) && decide (lineAddr d e.1 (getLine s e.1 e.2).tag / 512 ∈ s.cmoPend)
  let gone := fun (k : Nat) => decide (k % 16 = way) && keep.all fun e => e.1 ≠ k / 16
  { s with lines := Tab.drop gone s.lines
           data := Tab.drop (fun k => gone (k / 512)) s.data
           undef := s.undef &&& ~~~(BitVec.ofNat 16 (2 ^ way)) }

/-- A visit that happens, or is left for later where a write of it meets a held channel. -/
def cmoTry (d line : Nat) (f : Work → Work) (w : Work) : Work :=
  let v := f w
  if v.hold.isSome && w.hold.isNone then
    let s := getSlice w d
    setSlice w d { s with cmoPend := s.cmoPend ++ [line] }
  else v

/-- A way operation visits every line of its way that it can. -/
def cmoWayNow (w : Work) (d op way : Nat) : Work :=
  let s := getSlice w d
  let late := lateLines w d
  let w := ((occupied s).filter fun e => e.2 = way).foldl (fun w e =>
    let l := getLine s e.1 e.2
    let line := lineAddr d e.1 l.tag / 512
    if lineValid l && decide (line ∈ late) then w else cmoTry d line (fun w => cmoLine op w d e.1 e.2) w) w
  if op = 1 then w else setSlice w d (clearWay (getSlice w d) d way)

/-- An address operation visits every line of its range that it can. -/
def cmoRangeNow (w : Work) (d op first n : Nat) : Work :=
  let s := getSlice w d
  let late := lateLines w d
  if op = 4 then
    ((ownedLines d first n).filter fun a => !decide (a / 512 ∈ late)).foldl
      (fun w a => cmoTry d (a / 512) (fun w => zeroLineAt w d a) w) w
  else if s.enabled then
    (rangeLines s d first n).foldl (fun w e =>
      let line := lineAddr d e.1 (getLine s e.1 e.2).tag / 512
      if line ∈ late then w else cmoTry d line (fun w => cmoLine op w d e.1 e.2) w) w
  else w

/-- A maintenance operation that is not refused starts: it acts at once on every line that it can visit, and is BUSY until it has visited
the others and its last write has been acknowledged (R324, R325). -/
def cmoStart (w : Work) (d op : Nat) (byWay : Bool) (way bank : Nat) : Work :=
  let s := getSlice w d
  let first := (Tab.get (bvD 48) s.cmoAddr bank).toNat / 512
  let n := (Tab.get (bvD 32) s.cmoLen bank).toNat
  let late := (lateLines w d).eraseDups
  let pend := if byWay then late else late.filter fun l => inRange (2 ^ 39) first n l && (s.enabled || op = 4)
  let w := setSlice w d { s with cmoBusy := true, cmoBank := bank, cmoWb := 0, cmoDrop := 0, cmoOp := op,
                                 cmoWay := if byWay then some way else none, cmoPend := pend }
  if byWay then cmoWayNow w d op way else cmoRangeNow w d op first n

/-- The operation visits a line that it could not visit before, as soon as it can (R324). -/
def cmoCatch (d : Nat) (w : Work) (line : Nat) : Work :=
  let s := getSlice w d
  if !decide (line ∈ s.cmoPend) || decide (line ∈ lateLines w d) then w
  else
    cmoTry d line (fun w => cmoVisit s.cmoOp s.cmoWay w d (line * 512))
      (setSlice w d { s with cmoPend := s.cmoPend.filter (· ≠ line) })

/-- What a slice's operation has still to visit is tried again. -/
def cmoPass (w : Work) (d : Nat) : Work := (getSlice w d).cmoPend.foldl (cmoCatch d) w

/-- CACHE_FILL_DONE (R315): the fill of a sector of a line (A[47:9]). Requests that wait stand behind it. -/
def fillDone (w : Work) (d line sector : Nat) : Work :=
  let a := line * 512 + sector % 4 * 128
  match (getSlice w d).fills.find? fun f => f.pa = a with
  | none => w
  | some f => cmoCatch d { endFill { w with waiting := [] } d f with waiting := w.waiting } line

def execCacheFillDone (d line sector : Nat) (s : State) : Res :=
  onUnit "cache slice" 4 d s fun s => { s with work := settle (.cacheFillDone d line sector) s.work (fillDone s.work d line sector) }

/-- CD_CMO_CMD (R326): bank is the bank's number in CD_CMO_STAT. -/
def cmoCmd (w : Work) (d op : Nat) (byWay : Bool) (way bank : Nat) : Work :=
  let s := getSlice w d
  if s.cmoBusy || op = 0 || 4 < op || (byWay && op = 4) || (byWay && !s.wayPwr.getLsbD way) ||
      (byWay && s.waySweep.getLsbD way) then
    setSlice w d { s with cmoRefused := true }
  else cmoStart w d op byWay way bank

/-- CMO_DONE (R325). -/
def cmoDoneOp (w : Work) (d : Nat) : Work :=
  let s := getSlice w d
  if s.cmoBusy && s.cmoPend = [] then setSlice w d { s with cmoBusy := false, cmoDone := true } else w

def execCmoDone (d : Nat) (s : State) : Res :=
  onUnit "cache slice" 4 d s fun s => { s with work := cmoDoneOp s.work d }

/-! ## Ways (R328 to R332) -/

/-- Dirty lines of ways discarded under FORCE: CACHE_LOST (R330, R331). -/
def forceLost (w : Work) (d : Nat) (mask : BitVec 16) : Work :=
  let s := getSlice w d
  let n := dirtyLines s mask
  if n = 0 then w else raise (setSlice w d { s with lost := true }) (srcSlice d) 0x33 0 n

/-- CD_WAYEN under WPM=H (R329). A way set again while it is swept finishes its sweep first, so nothing is lost. CD_WAYPWR follows on a
disabled slice as well. -/
def wayEnH (w : Work) (d : Nat) (new : BitVec 16) : Work :=
  let s := getSlice w d
  let off := s.wayEn &&& ~~~new
  let on := new &&& ~~~s.wayEn
  let w := sweepWays w d (on &&& s.waySweep)
  let s := getSlice w d
  setSlice w d { s with wayEn := new, waySweep := s.waySweep ||| off ||| on, wayInit := s.wayInit ||| on,
                        wayPwr := s.wayPwr ||| on }

/-- CD_WAYEN under WPM=S (R330). -/
def wayEnS (w : Work) (d : Nat) (new : BitVec 16) (force : Bool) : Work :=
  let s := getSlice w d
  let off := s.wayEn &&& ~~~new
  let dirty := dirtyLines s off
  if dirty ≠ 0 && !force then setSlice w d { s with dirtyRef := true }
  else
    let w := forceLost w d off
    let s := clearWays (getSlice w d) off
    setSlice w d { s with wayEn := new }

/-- CD_WAYEN: a write that would enable a retired way is refused (R334). -/
def wayEnOp (w : Work) (d v : Nat) (force : Bool) : Work :=
  let s := getSlice w d
  let new := BitVec.ofNat 16 v
  if new &&& s.wayRet ≠ 0 then setSlice w d { s with refused := true }
  else if s.wpmS then wayEnS w d new force else wayEnH w d new

/-- CD_WAYPWR (R329, R330): ways powered on hold undefined tags. -/
def wayPwrOp (w : Work) (d v : Nat) : Work :=
  let s := getSlice w d
  let new := BitVec.ofNat 16 v
  if !s.wpmS then w
  else if (s.wayPwr &&& ~~~new) &&& s.wayEn ≠ 0 || new &&& s.wayRet ≠ 0 then setSlice w d { s with refused := true }
  else
    let on := new &&& ~~~s.wayPwr
    let off := s.wayPwr &&& ~~~new
    let s := dropWays s (on ||| off) ((s.undef ||| on) &&& ~~~off)
    setSlice w d { s with wayPwr := new }

/-- WAY_SWEEP_DONE (R329): a way being cleared is powered down, one being set goes into service. -/
def waySweepDone (w : Work) (d way : Nat) : Work :=
  let s := getSlice w d
  let m : BitVec 16 := BitVec.ofNat 16 (2 ^ way)
  if !s.waySweep.getLsbD way then w
  else
    let w := sweepWays w d m
    let s := getSlice w d
    setSlice w d { s with waySweep := s.waySweep &&& ~~~m, wayInit := s.wayInit &&& ~~~m
                          wayPwr := if s.wayEn.getLsbD way then s.wayPwr ||| m else s.wayPwr &&& ~~~m }

def execWaySweepDone (d way : Nat) (s : State) : Res :=
  if d < 4 then onUnit "way" 16 way s fun s => { s with work := settle (.waySweepDone d way) s.work (waySweepDone s.work d way) }
  else .refused (.noSuchUnit "cache slice" d)

/-! ## Enabling and disabling (R331) -/

/-- The disable sweep ends: everything written back, the slice in pass-through, its ways powered down. -/
def sliceOff (w : Work) (d : Nat) : Work :=
  let w := sweepWays w d (BitVec.allOnes 16)
  setSlice w d { getSlice w d with enabled := false, sweep := false, waySweep := 0, wayInit := 0, wayPwr := 0 }

/-- CD_CTRL.ENABLE set. Set during a disable sweep, it lets that sweep end first. -/
def sliceEnableOp (w : Work) (d : Nat) : Work :=
  let w := if (getSlice w d).sweep then sliceOff w d else w
  let s := getSlice w d
  if s.enabled then w
  else if s.wpmS then setSlice w d { s with enabled := true }
  else setSlice w d { s with enabled := true, waySweep := s.wayEn, wayInit := s.wayEn, wayPwr := s.wayEn }

/-- Every dirty sector made invalid. -/
def discardDirty (s : Slice) : Slice :=
  (occupied s).foldl (fun s e =>
    let l := getLine s e.1 e.2
    setLine s e.1 e.2 { l with sec := l.sec.map fun x => if x.dirty then sectorNone else x }) s

/-- CD_CTRL.ENABLE cleared. Under WPM=H the sweep of every enabled way shows in CD_STATUS.WAYSWEEP (R329). -/
def sliceDisableOp (w : Work) (d : Nat) (force : Bool) : Work :=
  let s := getSlice w d
  if !s.enabled then w
  else if !s.wpmS then setSlice w d { s with sweep := true, waySweep := s.waySweep ||| s.wayEn }
  else if dirtyLines s (BitVec.allOnes 16) ≠ 0 && !force then setSlice w d { s with dirtyRef := true }
  else
    let w := forceLost w d (BitVec.allOnes 16)
    setSlice w d { (discardDirty (getSlice w d)) with enabled := false }

/-- SLICE_SWEEP_DONE. -/
def sliceSweepDone (w : Work) (d : Nat) : Work := if (getSlice w d).sweep then sliceOff w d else w

def execSliceSweepDone (d : Nat) (s : State) : Res :=
  onUnit "cache slice" 4 d s fun s => { s with work := settle (.sliceSweepDone d) s.work (sliceSweepDone s.work d) }

/-! ## Bank sparing (R334) -/

def grpD : Nat → BitVec 6 := fun _ => 0x1F

/-- Basecamp disables the way of a failing bank, maps the bank's position to the spare and enables the way again; when the
spare is in use the way is retired. -/
def bankSpare (w : Work) (d g pos : Nat) : Work × Bool :=
  let way := g / 2
  let m : BitVec 16 := BitVec.ofNat 16 (2 ^ way)
  let old := Tab.get grpD (getSlice w d).grpMap g
  if (getSlice w d).wayRet.getLsbD way then (w, false)
  else
    let w := sweepWays w d m
    let s := getSlice w d
    if old = 0x1F then
      let s := { s with grpMap := Tab.set grpD s.grpMap g (BitVec.ofNat 6 pos) }
      (raise (setSlice w d s) (srcSlice d) 0x34 0 (g + pos * 32), true)
    else
      let s := { s with grpMap := Tab.set grpD s.grpMap g (old ||| 0x20), wayRet := s.wayRet ||| m,
                        wayEn := s.wayEn &&& ~~~m, wayPwr := s.wayPwr &&& ~~~m, waySweep := s.waySweep &&& ~~~m,
                        wayInit := s.wayInit &&& ~~~m }
      (raise (setSlice w d s) (srcSlice d) 0x35 0 way, false)

/-- Number of a bank: die, group, position. -/
def bankKey (d g pos : Nat) : Nat := d * 1024 + g * 32 + pos

/-- Whether a bank is to be replaced: BankCeLimit corrected events within 86,400 s of IT, or one CACHE_UE (R515). -/
def bankFails (s : State) (k : Nat) : Bool :=
  decide (k ∈ s.misc.bankUe) || decide (od s.work 0x6027 ≤
    (s.misc.bankTimes.filter fun e => e.1 = k && decide (s.work.now.toNat < e.2.toNat + 864000000000)).length)

/-- The record of a bank's errors after it was replaced. -/
def clearBank (m : Misc) (k : Nat) : Misc :=
  { m with bankTimes := m.bankTimes.filter fun e => e.1 ≠ k, bankUe := m.bankUe.filter (· ≠ k) }

/-- BANK_SPARE: nothing is done to a bank that has not failed. SpareBankUsed counts a spare brought in (R516). -/
def execBankSpare (d g pos : Nat) (s : State) : Res :=
  if 4 ≤ d then .refused (.noSuchUnit "cache slice" d)
  else if 32 ≤ g then .refused (.noSuchUnit "bank group" g)
  else if 20 ≤ pos then .refused (.noSuchUnit "bank position" pos)
  else if !bankFails s (bankKey d g pos) then .next s
  else
    let (w, used) := bankSpare s.work d g pos
    let n := Tab.get zeroD s.misc.bankUsed (d + 1) + b2n used
    .next (settleS (.bankSpare d g pos) s { s with work := w, misc := { clearBank s.misc (bankKey d g pos) with
      bankUsed := Tab.set zeroD s.misc.bankUsed (d + 1) n } })

end Sys2Proof.Machine
end

