-- ==== Sys2Proof/Machine/Channel.lean ====
section
/-! DEFINITION. The memory channels' own commands (R351 to R368): a block read, patrol scrub, row repair, retraining, hPPR, taking a
channel offline and online, device marks, and the traffic generator. -/

namespace Sys2Proof.Machine

open Host

/-! ## Reads and scrubbing -/

/-- Whether a channel's own read of a block may happen: online, and the rank row not held. -/
def chServes (w : Work) (c x : Nat) : Bool :=
  (getCh w c).state = 2 && !(getCh w c).rowsHeld.any fun r => r.on && r.row = x / 8192

/-- DRAM_READ: an online channel reads a block, whose devices show these symbol errors beside those that stand (log entry 117). The
data goes to whoever asked; the channel knows it by X. -/
def dramRead (w : Work) (c x : Nat) (err : List (Nat × Byte)) : Work :=
  let x := x / 128 * 128 % 2 ^ 35
  if !chServes w c x then w
  else
    let (w, r) := chRead (showErrs w c x err) c x 0
    let w := meterDram w (req 2 0)
    match paOf w c x with
    | some a => emit w (.cacheData a r.data r.poison)
    | none => w

def execDramRead (c x : Nat) (err : List (Nat × Byte)) (s : State) : Res :=
  onUnit "channel" 24 c s fun s => { s with work := dramRead s.work c x err }

/-- PATROL_SCRUB (R356): at class 3, outside the spare region; what a corrected block decoded to is written back in the same
operation. -/
def patrolScrub (w : Work) (c x : Nat) (err : List (Nat × Byte)) : Work :=
  let x := x / 128 * 128 % 2 ^ 35
  if !chServes w c x || x < 0x2000000 then w
  else
    let (w, r) := chRead (showErrs w c x err) c x 0
    let w := meterDram w (req 3 0)
    if !r.ue && (r.fix0 ++ r.fix1) ≠ [] then chPut (meterDram w (req 3 0)) c x r.data r.poison else w

def execPatrolScrub (c x : Nat) (err : List (Nat × Byte)) (s : State) : Res :=
  onUnit "channel" 24 c s fun s => { s with work := patrolScrub s.work c x err }

/-- Copies the 64 blocks of a rank row, correcting each under the mark of the rank they lie in; one that cannot be corrected is written as
the marker (R362). -/
def copyRow (w : Work) (c src dst : Nat) : Work :=
  let marked := markAt (getCh w c) (8192 * src)
  (List.range 64).foldl (fun w i =>
    let x := 8192 * src + 128 * i
    let r := decodeAt w c x marked (errsAt w c x)
    putBlock w c (8192 * dst + 128 * i) (if r.poison then marker else r.data)) w

/-- Device and bank group of a rank row, as hPPR counts them: 40 per channel (R515). -/
def hpprKey (row dev : Nat) : Nat × Nat := (row / 16 % 2 * 5 + dev, row % 4)

/-- ADDR of ROW_REMAPPED (Table 17.3). -/
def rowAddr (row : Nat) : Nat := row / 16 % 2 + row % 4 * 2 + row / 4 % 4 * 8 + row / 32 * 32

/-- ROW_REMAPPED (R362, R363): the copy of the first held row completes. When no spare row or entry is left for it, the pages of its
failing blocks are retired (R364). -/
def rowRemapped (w : Work) (c : Nat) : Work :=
  let m := getCh w c
  match m.rowsHeld with
  | [] => w
  | r :: rest =>
    let row := r.row
    let dev := r.dev
    match freeSpare m with
    | none => retirePages (setCh w c { m with rowsHeld := rest }) c r.bad
    | some sp =>
      match entryOf m row with
      | some (k, e) =>
        let w := copyRow w c e.spare sp
        let m := dropRow (getCh w c) row
        let e := { e with spare := sp, remaps := min 31 (e.remaps + 1) }
        raise (setCh w c { m with rowsHeld := rest, spareUsed := m.spareUsed ++ [sp], remaps := Tab.set remapD m.remaps k e })
          (srcCh c) 0x48 0 (rowAddr row)
      | none =>
        match freeEntry m with
        | none => retirePages (setCh w c { m with rowsHeld := rest }) c r.bad
        | some k =>
          let w := copyRow w c row sp
          let m := dropRow (getCh w c) row
          let e := { valid := true, pending := dev < 5 && !decide (hpprKey row dev ∈ m.hpprUsed), row := row, spare := sp,
                     dev := dev, remaps := 0 }
          raise (setCh w c { m with rowsHeld := rest, spareUsed := m.spareUsed ++ [sp],
                                    remaps := Tab.set remapD m.remaps k e }) (srcCh c) 0x48 0 (rowAddr row)

def execRowRemapped (c : Nat) (s : State) : Res :=
  onUnit "channel" 24 c s fun s => { s with work := rowRemapped s.work c }

/-! ## Holds: retraining and hPPR (R357 to R361, R365) -/

def chRefuse (w : Work) (c : Nat) : Work := setCh w c { getCh w c with refused := true }

/-- Starts a retrain of a channel that is online or untrained; one that is held runs it when the hold ends. -/
def retrainStart (w : Work) (c : Nat) : Work :=
  let m := getCh w c
  if m.state = 2 then setCh w c { m with state := 3, retrain := true, holdAt := w.now, wq := [] }
  else if m.state = 0 then setCh w c { m with state := 1, retrain := true, holdAt := w.now }
  else setCh w c { m with again := true }

/-- RETRAIN (R359). -/
def retrainOp (w : Work) (c : Nat) : Work :=
  let m := getCh w c
  if m.state = 4 || m.state = 5 || m.tgBusy then chRefuse w c else retrainStart w c

/-- A pin corrected more than 64 times within 1 s (R360). -/
def pinStorm (w : Work) (c : Nat) : Bool :=
  let l := recent w.now second (getCh w c).pinTimes
  (List.range 80).any fun j => decide (64 < (l.filter fun e => e.1 = j).length)

/-- A MEM_RETRAIN for the channel in the Event Table within the next RetrainGrace. -/
def retrainPlanned (s : State) (c : Nat) : Bool :=
  s.ev.table.any fun e =>
    e.2.action = 6 && fld e.2.arg1 0 24 / 2 ^ c % 2 = 1 && decide (e.2.tick.toNat ≤ s.work.now.toNat + od s.work 0x2345)

/-- EMERGENCY_RETRAIN (R360). -/
def emergencyRetrain (s : State) (c : Nat) : State :=
  let w := s.work
  let m := getCh w c
  let late := m.due && decide (m.dueSince.toNat + od w 0x2345 ≤ w.now.toNat) && !retrainPlanned s c
  if !(late || pinStorm w c) || m.retrain || m.state = 4 || m.state = 5 || m.tgBusy then s
  else
    let w := raise (setCh w c { m with emerg := true }) (srcCh c) 0x43 0 0
    { s with work := retrainStart w c }

def execEmergencyRetrain (c : Nat) (s : State) : Res := onUnit "channel" 24 c s fun s => emergencyRetrain s c

/-- The length of the present hold in microseconds (MC_LASTPAUSE). -/
def pauseUs (w : Work) (m : MemCh) : W32 := BitVec.ofNat 32 ((w.now.toNat - m.holdAt.toNat) / 10)

/-- A hold ends, unless hPPR still holds the channel or another retrain was requested. -/
def endHold (w : Work) (c : Nat) : Work :=
  let m := getCh w c
  let m := { m with lastPause := pauseUs w m }
  if m.again then setCh w c { m with again := false, retrain := true, state := 3, holdAt := w.now }
  else setCh w c { m with state := if m.pprQueue = [] then 2 else 3 }

/-- A channel fails training (R361). -/
def trainFails (w : Work) (c : Nat) : Work :=
  let m := getCh w c
  let m := { m with retrain := false, again := false, trained := false, state := 5, trainFail := true, pprQueue := [],
                    lastPause := pauseUs w m }
  raise (setCh w c m) (srcCh c) 0x44 0 0

/-- RETRAIN_DONE (R357, R361). -/
def retrainDone (w : Work) (c : Nat) (ok : Bool) : Work :=
  let m := getCh w c
  if !m.retrain then w
  else if ok then
    endHold (setCh w c { m with retrain := false, trained := true, due := false, lastTrain := w.now, trainTemp := m.temp }) c
  else trainFails w c

def execRetrainDone (c : Nat) (ok : Bool) (s : State) : Res :=
  onUnit "channel" 24 c s fun s => { s with work := retrainDone s.work c ok }

/-- RETRAIN_DUE: the temperature that the controller reads for its channel (R360). -/
def retrainDue (w : Work) (c : Nat) (t : Int) : Work :=
  let m := getCh w c
  let m := { m with temp := t }
  if !m.due && m.trained && decide (od w 0x2346 < (t - m.trainTemp).natAbs) then
    setCh w c { m with due := true, dueSince := w.now }
  else setCh w c m

def execRetrainDue (c : Nat) (t : Int) (s : State) : Res :=
  onUnit "channel" 24 c s fun s => { s with work := retrainDue s.work c t }

/-- PPR (R365): every pending entry, under a hold. A channel that is not online serves no request; its hold begins with the repair. -/
def pprOp (w : Work) (c : Nat) : Work :=
  let m := getCh w c
  let q := (m.remaps.filter fun e => e.2.valid && e.2.pending && !decide (e.1 ∈ m.pprQueue)).map (·.1)
  if q = [] then w
  else if m.state = 2 then setCh w c { m with pprQueue := m.pprQueue ++ q, state := 3, holdAt := w.now, wq := [] }
  else if m.retrain || m.pprQueue ≠ [] then setCh w c { m with pprQueue := m.pprQueue ++ q }
  else setCh w c { m with pprQueue := q, holdAt := w.now }

/-- The state a trained channel enters when it is put into service: held while an hPPR of it still runs (R365). -/
def serviceState (m : MemCh) : Nat := if m.pprQueue = [] then 2 else 3

/-- PPR_DONE (R365): hPPR of an entry ends. -/
def pprDone (w : Work) (c k : Nat) (ok : Bool) : Work × Bool :=
  let m := getCh w c
  if !decide (k ∈ m.pprQueue) then (w, false)
  else
    let e := Tab.get remapD m.remaps k
    let w := if ok then copyRow w c e.spare e.row else w
    let m := if ok then dropRow (getCh w c) e.row else getCh w c
    let m := { m with pprQueue := m.pprQueue.filter fun j => j ≠ k }
    let m := if ok then { m with remaps := Tab.set remapD m.remaps k (remapD k), spareUsed := m.spareUsed.filter (fun j => j ≠ e.spare),
                                 hpprUsed := m.hpprUsed ++ [hpprKey e.row e.dev] }
      else { m with remaps := Tab.set remapD m.remaps k { e with pending := false } }
    let w := raise (setCh w c m) (srcCh c) 0x4A 0 (k + b2n (!ok) * 4096)
    (if m.pprQueue ≠ [] || m.retrain then w
     else if m.state = 3 then endHold w c
     else setCh w c { m with lastPause := pauseUs w m }, ok)

/-- PprUsed counts the repair (R516). -/
def execPprDone (c k : Nat) (ok : Bool) (s : State) : Res :=
  onUnit "channel" 24 c s fun s =>
    let (w, used) := pprDone s.work c k ok
    let n := Tab.get zeroD s.misc.pprUsed (c + 1) + b2n used
    { s with work := w, misc := { s.misc with pprUsed := Tab.set zeroD s.misc.pprUsed (c + 1) n } }

/-! ## Offline, online, marks (R353, R367) -/

/-- OFFLINE (R367). An hPPR that runs goes on. -/
def offlineOp (w : Work) (c : Nat) : Work :=
  if w.dstate = .init || w.dstate = .preOp || w.dstate = .stopped then
    setCh w c { getCh w c with state := 4, retrain := false, again := false, wq := [] }
  else chRefuse w c

/-- ONLINE (R367). The traffic generator runs on an offline channel only: a run that is under way ends here, without DONE (log entry
119). -/
def onlineOp (w : Work) (c : Nat) : Work :=
  let m := getCh w c
  if m.state = 4 && m.trained then setCh w c { m with state := serviceState m, tgBusy := false } else chRefuse w c

/-- MARK: device numbers 5 to 7 are reserved and name nothing. -/
def markOp (w : Work) (c rank dev : Nat) : Work :=
  let old := markOf (getCh w c) (rank % 2)
  if 5 ≤ dev then w
  else if old ≠ 7 && old ≠ dev then chRefuse w c
  else markDev w c (rank % 2) dev

def unmarkOp (w : Work) (c rank : Nat) : Work :=
  let m := getCh w c
  setCh w c { m with mark := Tab.set (fun _ => 7) m.mark (rank % 2) 7 }

/-- MC_CMD (Table 11.11). -/
def mcCmd (w : Work) (c v : Nat) : Work :=
  match v % 16 with
  | 1 => retrainOp w c
  | 2 => offlineOp w c
  | 3 => onlineOp w c
  | 4 => pprOp w c
  | 5 => markOp w c (bitsN v 4 1) (bitsN v 5 3)
  | 6 => unmarkOp w c (bitsN v 4 1)
  | _ => w

/-! ## Traffic generator (R368, Tables 11.12 and 11.13) -/

/-- MC_TG_CTRL with GO set: refused unless the channel is offline. -/
def tgGoOp (w : Work) (c : Nat) (v : W32) : Work :=
  let m := getCh w c
  if m.tgBusy then w
  else if m.state ≠ 4 then setCh w c { m with tgRefused := true, tgCtrl := setFld v 0 1 0 &&& 0x1FFFF }
  else setCh w c { m with tgCtrl := setFld v 0 1 0 &&& 0x1FFFF, tgBusy := true, tgCount := 0, tgErrs := 0, tgFirst := 0,
                          tgPinLo := 0, tgPinHi := 0 }

/-- The block that the generator writes or expects at an address: zeros, ones and the repeated seed are given by the table; the
layout of the other patterns is open (log entry 32). -/
def tgBlock (m : MemCh) (x : Nat) : List Byte :=
  let p := fld m.tgCtrl 1 3
  (List.range 128).map fun i =>
    if p = 0 ∨ 6 ≤ p then 0
    else if p = 1 then 0xFF
    else if p = 5 then BitVec.ofNat 8 (m.tgSeed.toNat / 256 ^ (i % 4))
    else Config.tgByte p m.tgSeed.toNat (x + i)

/-- Address of the i-th block of a run. -/
def tgAddr (m : MemCh) (i : Nat) : Nat :=
  let k := match fld m.tgCtrl 4 2 with
    | 1 => i * m.tgStride.toNat
    | 2 => Config.tgOrder m.tgSeed.toNat m.tgLen.toNat i % max 1 m.tgLen.toNat
    | _ => i
  (m.tgBase.toNat / 128 * 128 + 128 * k) % 2 ^ 35

def tgWrite (c : Nat) (m : MemCh) : List Nat → Work → Work
  | [], w => w
  | i :: is, w => tgWrite c m is (putBlock w c (remapX m (tgAddr m i)) (tgBlock m (tgAddr m i)))

/-- Pins on which a block differs from what was expected, with the errors that the devices showed on the i-th read: entry
(160 i + 80 h + j, b). -/
def tgDiff (w : Work) (c : Nat) (m : MemCh) (flips : List (Nat × Byte)) (i : Nat) : List Nat :=
  let x := tgAddr m i
  let err := joinErrs (errsAt w c (remapX m x)) ((flips.filter fun e => e.1 / 160 = i).map fun e => (e.1 % 160, e.2))
  let got := rawBlock w c (remapX m x)
  let want := tgBlock m x
  (List.range 80).filter fun j => (List.range 2).any fun h =>
    let g := withErrors h err (codeword got h)
    let k := codeword want h
    if bit m.tgCtrl 16 then g.getD j 0 ≠ k.getD j 0
    else
      match decodeWord g (markAt m (remapX m x)) with
      | some d => j < 64 && d.1.getD j 0 ≠ k.getD j 0
      | none => g.getD j 0 ≠ k.getD j 0

/-- Compares the blocks of a run, to the first mismatch when STOPERR is set. -/
def tgCompare (c : Nat) (m0 : MemCh) (flips : List (Nat × Byte)) : List Nat → Work → Work
  | [], w => w
  | i :: is, w =>
    let pins := tgDiff w c m0 flips i
    let m := getCh w c
    let m := { m with tgCount := bump m.tgCount 1 }
    if pins = [] then tgCompare c m0 flips is (setCh w c m)
    else
      let m := if m.tgErrs = 0 then
          { m with tgFirst := BitVec.ofNat 35 (tgAddr m0 i),
                   tgPinLo := BitVec.ofNat 64 (((pins.filter fun j => j < 64).map fun j => 2 ^ j).sum),
                   tgPinHi := BitVec.ofNat 16 (((pins.filter fun j => decide (64 ≤ j)).map fun j => 2 ^ (j - 64)).sum) }
        else m
      let w := setCh w c { m with tgErrs := bump m.tgErrs 1, tgFail := true }
      if bit m0.tgCtrl 15 then w else tgCompare c m0 flips is w

/-- TG_DONE: the run as a whole (R368). -/
def tgDoneOp (w : Work) (c : Nat) (flips : List (Nat × Byte)) : Work :=
  let m := getCh w c
  if !m.tgBusy || m.state ≠ 4 then w
  else
    let is := List.range m.tgLen.toNat
    let mix := fld m.tgCtrl 6 2
    let w := if mix = 2 then w
      else
        let w := tgWrite c m is w
        let m := getCh w c
        setCh w c { m with tgCount := bump m.tgCount is.length }
    let w := if mix = 1 then w else tgCompare c m flips is w
    setCh w c { getCh w c with tgBusy := false, tgDone := true }

def execTgDone (c : Nat) (flips : List (Nat × Byte)) (s : State) : Res :=
  onUnit "channel" 24 c s fun s => { s with work := tgDoneOp s.work c flips }

end Sys2Proof.Machine
end

