-- ==== Sys2Proof/Machine/Operands.lean ====
section
/-! DEFINITION. The fields of a macro-op packet (Table 2.4), its operands (Table 2.5), the families of opcodes (Table 2.6)
and the fields of a stream descriptor (Table 3.4). -/

namespace Sys2Proof.Machine

/-! ## Common packet fields -/

def opcOf (p : Packet) : Nat := fld p 0 8
def tselOf (p : Packet) : Nat := fld p 8 3
def unitBit (p : Packet) : Nat := fld p 11 1
def predOf (p : Packet) : Nat := fld p 12 3
def schedOf (p : Packet) : Bool := bit p 15
def srcA (p : Packet) : Nat := fld p 16 10
def srcB (p : Packet) : Nat := fld p 26 10
def srcC (p : Packet) : Nat := fld p 36 10
def dstOf (p : Packet) : Nat := fld p 46 10
def seqOf (p : Packet) : Nat := fld p 56 8
def rdBase (p : Packet) : Nat := fld p 64 8
def rdCnt (p : Packet) : Nat := fld p 72 9
def wrBase (p : Packet) : Nat := fld p 88 8
def wrCnt (p : Packet) : Nat := fld p 96 9
def tctrOf (p : Packet) : Nat := fld p 112 3
def tstepOf (p : Packet) : Bool := bit p 115
def tshiftOf (p : Packet) : Nat := fld p 116 3
def twrapOf (p : Packet) : Nat := fld p 119 4

/-! ## Operands (R49) -/

/-- A decoded operand; bad when a field that must be zero is not. -/
inductive Opnd where
  | none
  | queue (q : Nat)
  | ledge (r : Nat)
  | vreg (v : Nat)
  | bad
  deriving DecidableEq, Repr

def opnd (f : Nat) : Opnd :=
  let k := f / 256
  let i := f % 256
  if k = 0 then (if i = 0 then .none else .bad)
  else if k = 1 then (if i < 16 then .queue i else .bad)
  else if k = 2 then .ledge i
  else if i < 32 then .vreg i else .bad

def Opnd.isNone : Opnd → Bool
  | .none => true
  | _ => false
def Opnd.isLedge : Opnd → Bool
  | .ledge _ => true
  | _ => false
def Opnd.isVreg : Opnd → Bool
  | .vreg _ => true
  | _ => false
/-- Pop end of the AU: Q12 to Q15; of the EU: Q0 to Q11 (R75). -/
def Opnd.isPop (eu : Bool) : Opnd → Bool
  | .queue q => if eu then q < 12 else 12 ≤ q
  | _ => false
/-- Push end of the AU: Q0 to Q11; of the EU: Q12 to Q15 (R75). -/
def Opnd.isPush (eu : Bool) : Opnd → Bool
  | .queue q => if eu then 12 ≤ q else q < 12
  | _ => false

/-- The Ledge byte address of an operand region. -/
def opndLedge (f : Nat) : Nat := f % 256 * 4096

/-! ## Families (Table 2.6) -/

/-- Opcodes the front end executes itself. -/
def isFrontEnd (o : Nat) : Bool := o ≤ 3

/-- Families that may run on either unit, by UNIT. -/
def isEither (o : Nat) : Bool := o = 8 || o = 0x80 || o = 0x81 || (0x84 ≤ o && o ≤ 0x86)

/-- Families of the Execute Unit. -/
def isEuFam (o : Nat) : Bool := (0x20 ≤ o && o ≤ 0x5F) || (0x88 ≤ o && o ≤ 0x8B)

/-- The unit a packet runs on: 0 AU, 1 EU. -/
def unitOf (p : Packet) : Nat := if isEither (opcOf p) then unitBit p else b2n (isEuFam (opcOf p))

def isStream (o : Nat) : Bool := o = 0x10 || o = 0x11 || o = 0x12
def isVector (o : Nat) : Bool := 0x40 ≤ o && o ≤ 0x5F
def isFabric (o : Nat) : Bool := 0x20 ≤ o && o ≤ 0x37
def isGather (o : Nat) : Bool := 0x60 ≤ o && o ≤ 0x6F
def isEupd (o : Nat) : Bool := 0x78 ≤ o && o ≤ 0x7F

/-! ## Stream arguments and descriptor (Tables 3.3 and 3.4) -/

def strmCh (p : Packet) : Nat := fld p 128 3
/-- Ledge byte address of the descriptor. -/
def strmDesc (p : Packet) : Nat := fld p 132 14 * 64

abbrev Desc := BitVec 512

def dBase (d : Desc) : Nat := fld d 0 48
def dAsp (d : Desc) : Nat := fld d 48 2
def dEsz (d : Desc) : Nat := 2 ^ fld d 50 3
def dNdim (d : Desc) : Nat := fld d 53 3
def dIdx (d : Desc) : Bool := bit d 56
def dIdxdim (d : Desc) : Nat := fld d 57 3
def dIdxBytes (d : Desc) : Nat := if bit d 60 then 6 else 4
def dCmp (d : Desc) : Bool := bit d 61
def dCache (d : Desc) : Nat := fld d 62 2
def dCount (d : Desc) (i : Nat) : Nat := fld d (64 + 24 * i) 24
def dStride (d : Desc) (i : Nat) : Int := toSigned 40 (fld d (192 + 40 * i) 40)
def dIdxBase (d : Desc) : Nat := fld d 392 48
def dDev (d : Desc) : Nat := fld d 440 16
def dClass (d : Desc) : Nat := fld d 456 2
def dNosnoop (d : Desc) : Bool := bit d 458
def dIdxLedge (d : Desc) : Bool := bit d 459
def dOrder (d : Desc) : Bool := bit d 460
def dBelay (d : Desc) : Nat := fld d 464 16
def dPost (d : Desc) : Bool := bit d 480

/-- Product of the counts of the first n dimensions. -/
def dProd (d : Desc) : Nat → Nat
  | 0 => 1
  | n + 1 => dProd d n * dCount d n

/-- Elements of a stream; for CMP = 1, tiles (R87, R91). -/
def dTotal (d : Desc) : Nat := dProd d (dNdim d)

/-- Coordinate i of element k, dimension 0 innermost (R87). -/
def dCoord (d : Desc) (k i : Nat) : Nat := k / dProd d i % dCount d i

/-- Position in the index tensor of element k: one entry per step of dimension IDXDIM (R87). -/
def dIdxPos (d : Desc) (k : Nat) : Nat := k / dProd d (dIdxdim d)

/-- The address of element k, given the index value of its position (R87). -/
def dAddr (d : Desc) (k idx : Nat) : Nat :=
  let a := (List.range (dNdim d)).foldl (fun (a : Int) i =>
    let m : Nat := if dIdx d && i = dIdxdim d then idx else dCoord d k i
    a + (m : Int) * dStride d i) (dBase d : Int)
  ofInt 48 a

/-- Size in bytes of a stream's elements: 16-byte tile headers when CMP is 1. -/
def dEbytes (d : Desc) : Nat := if dCmp d then 16 else dEsz d

/-- Whether the descriptor breaks a rule of R89. -/
def descBad (d : Desc) (mcast ledgeDst : Bool) : Bool :=
  let n := dNdim d
  fld d 184 8 ≠ 0 || fld d 461 3 ≠ 0 || fld d 481 31 ≠ 0 ||
  dAsp d = 3 || n = 0 || n = 6 || n = 7 || 2 ≤ dCache d ||
  (dIdx d && n ≤ dIdxdim d) ||
  dBase d % dEsz d ≠ 0 || (List.range n).any (fun i => dStride d i % (dEsz d : Int) ≠ 0) ||
  (dIdx d && !dCmp d && dIdxBase d % dIdxBytes d ≠ 0) ||
  (dCmp d && dIdxBase d % 128 ≠ 0) ||
  (dNosnoop d && dAsp d ≠ 1) ||
  (dCmp d && (dIdx d || fld d 50 3 ≠ 4 || ledgeDst)) ||
  (mcast && dAsp d ≠ 0)

end Sys2Proof.Machine
end

