-- ==== Sys2Proof/Machine/Xlate.lean ====
section
/-! DEFINITION. Translation of tenancy virtual addresses (R393 to R395) and access to device memory by virtual address. -/

namespace Sys2Proof.Machine

/-- An agent that caches translations (R395): a Crag, a Summit, a port of a Port die (0 to 7 Traverse, 8 the Rope, 9 and 10 requests looped
back and forwarded), an Update Unit. -/
inductive Xa where
  | crag (c : Nat)
  | summit (n : Nat)
  | port (p : Nat)
  | upd (u : Nat)
  deriving DecidableEq, Repr

def tlbD : Nat → List Tlb := fun _ => []

/-- Cached translations of an agent and how many it holds; ports and Update Units hold 64 each (log entry 20). -/
def tlbOf (w : Work) : Xa → List Tlb × Nat
  | .crag c => ((getCrag w c).tlb, 64)
  | .summit n => ((getSummit w n).tlb, 16)
  | .port p => (Tab.get tlbD w.ptlb p, 64)
  | .upd u => (Tab.get tlbD w.ptlb (16 + u), 64)

def setTlb (w : Work) (t : List Tlb) : Xa → Work
  | .crag c => setCrag w c { getCrag w c with tlb := t }
  | .summit n => setSummit w n { getSummit w n with tlb := t }
  | .port p => { w with ptlb := Tab.set tlbD w.ptlb p t }
  | .upd u => { w with ptlb := Tab.set tlbD w.ptlb (16 + u) t }

/-- Whether an agent's requests enter through a Port die (R24). -/
def Xa.isPort : Xa → Bool
  | .port _ => true
  | .upd _ => true
  | _ => false

/-- An 8-byte translation entry read at class 0 (R393): none when its block is poisoned. -/
def walkRead (w : Work) (ten a : Nat) (port : Bool) : Work × Option Nat :=
  let (w, bs, p) := readPa w ⟨0, ten, false, port⟩ a 8
  (w, if p then none else some (leNat bs))

/-- Reserved fields of an entry are clear (R394). -/
def entryOk (e : Nat) : Bool := decide (bitsN e 3 9 = 0) && decide (bitsN e 48 16 = 0) && decide (bitsN e 0 1 = 1)

/-- The two-level walk (R393, R394): base of the 2 MiB piece that holds the address and the leaf's W. -/
def walk (w : Work) (ten va : Nat) (port : Bool) : Work × Option (Nat × Bool) :=
  let (w, e1) := walkRead w ten (od w 0x4004 0 ten + 8 * bitsN va 30 18) port
  match e1 with
  | none => (w, none)
  | some e =>
    if !entryOk e then (w, none)
    else
      let base := bitsN e 12 36 * 4096
      if bitsN e 1 1 = 1 then
        if base % 2 ^ 30 ≠ 0 then (w, none)
        else (w, some (base + bitsN va 21 9 * 2 ^ 21, decide (bitsN e 2 1 = 1)))
      else
        let (w, e2) := walkRead w ten (base + 8 * bitsN va 21 9) port
        match e2 with
        | none => (w, none)
        | some e =>
          let base := bitsN e 12 36 * 4096
          if !entryOk e || bitsN e 1 1 = 0 || base % 2 ^ 21 ≠ 0 then (w, none)
          else (w, some (base, decide (bitsN e 2 1 = 1)))

/-- The physical address of a virtual one for an agent, reading or writing; none when it has no translation. A cached
translation is used as it stands; a new one replaces the oldest (log entry 20). -/
def xlate (w : Work) (who : Xa) (ten va : Nat) (write : Bool) : Work × Option Nat :=
  let page := va / 2 ^ 21
  let (t, cap) := tlbOf w who
  match t.find? fun e => e.ten = ten && decide (e.page = page) with
  | some e => (w, if write && !e.w then none else some (e.base + va % 2 ^ 21))
  | none =>
    match walk w ten va who.isPort with
    | (w, none) => (w, none)
    | (w, some (base, wr)) =>
      let t' := (tlbOf w who).1 ++ [Tlb.mk ten page base wr]
      let w := setTlb w (t'.drop (t'.length - cap)) who
      (w, if write && !wr then none else some (base + va % 2 ^ 21))

/-- The physical addresses of the pieces of one access, or the first address that has no translation. -/
def xlateAll (who : Xa) (ten : Nat) (write : Bool) : Work → List (Nat × Nat) → Work × Except Nat (List (Nat × Nat × Nat))
  | w, [] => (w, .ok [])
  | w, p :: ps =>
    match xlate w who ten p.1 write with
    | (w, none) => (w, .error p.1)
    | (w, some a) =>
      match xlateAll who ten write w ps with
      | (w, .error f) => (w, .error f)
      | (w, .ok l) => (w, .ok ((a, p) :: l))

/-- n bytes from a virtual address: data, poison, and the first address without translation, which leaves the whole access undone
(R47, R394). -/
def vRead (w : Work) (who : Xa) (r : Req) (va n : Nat) : Work × List Byte × Bool × Option Nat :=
  match xlateAll who r.ten false w (pieces va n) with
  | (w, .error f) => (w, zeros n, false, some f)
  | (w, .ok l) =>
    let (w, bs, po) := l.foldl (fun acc p =>
      let (w, bs, po) := acc
      let (w, b, q) := readPa w r p.1 p.2.2
      (w, bs ++ b, po || q)) (w, [], false)
    (w, bs, po, none)

/-- Bytes written from a virtual address: an address without translation leaves the whole access undone (R47, R394). -/
def vWrite (w : Work) (who : Xa) (r : Req) (va : Nat) (bs : List Byte) (poison : Bool) : Work × Option Nat :=
  match xlateAll who r.ten true w (pieces va bs.length) with
  | (w, .error f) => (w, some f)
  | (w, .ok l) => (l.foldl (fun w p => writePa w r p.1 ((bs.drop (p.2.1 - va)).take p.2.2) poison) w, none)

/-- Drops every cached translation of a tenancy in every agent (R395). -/
def invalXlate (w : Work) (t : Nat) : Work :=
  let keep := fun (l : List Tlb) => l.filter fun e => e.ten ≠ t
  { w with
    crags := Tab.mapV cragD (fun _ x => { x with tlb := keep x.tlb }) w.crags
    summits := Tab.mapV summitD (fun _ x => { x with tlb := keep x.tlb }) w.summits
    ptlb := Tab.mapV tlbD (fun _ l => keep l) w.ptlb }

end Sys2Proof.Machine
end

