-- ==== Sys2Proof/Machine/CragOps.lean ====
section
/-! DEFINITION. Operations inside a Crag: the Ledge with its bounds check, poison and zero map (R34, R57, R108, R151), the
data queues (R75 to R80), the scoreboard and start order (R37, R54, R79), the party stop (R68), and finishing a
macro-op (R56). -/

namespace Sys2Proof.Machine

/-! ## The Ledge -/

def ledgeWrap (a : Nat) : Nat := a % 2 ^ 20

/-- n bytes from a Ledge address (R34). -/
def ledgeGet (x : Crag) (a n : Nat) : List Byte := (List.range n).map fun i => Mem.get x.ledge (ledgeWrap (a + i))

/-- Whether any 128 B block of the bytes is poisoned (R108). -/
def ledgePois (x : Crag) (a n : Nat) : Bool :=
  (pieces a n).any fun p => Tab.get falseD x.lpois (ledgeWrap p.1 / 128)

/-- The zero map after bytes are written (R151): the bit of a half is set when the half is written whole, all zero and
without poison, and cleared by any other write to it. -/
def zmapWrite (z : Tab Bool) (a : Nat) (bs : List Byte) (poison : Bool) : Tab Bool :=
  (List.range ((a % 64 + bs.length + 63) / 64)).foldl (fun z i =>
    let h := a / 64 + i
    let lo := max a (64 * h)
    let hi := min (a + bs.length) (64 * h + 64)
    let part := (bs.drop (lo - a)).take (hi - lo)
    Tab.set falseD z (h % 16384) (decide (hi - lo = 64) && part.all (· = 0) && !poison)) z

def ledgeBytes (m : Mem) : Nat → List Byte → Mem
  | _, [] => m
  | a, b :: bs => ledgeBytes (Mem.set m (ledgeWrap a) b) (a + 1) bs

/-- Bytes written to the Ledge. A whole block takes the data's poison, a part leaves a poisoned block poisoned (R108). -/
def ledgePut (x : Crag) (a : Nat) (bs : List Byte) (poison : Bool) : Crag :=
  { x with
    ledge := ledgeBytes x.ledge a bs
    zmap := zmapWrite x.zmap a bs poison
    lpois := (pieces a bs.length).foldl (fun t p =>
      let b := ledgeWrap p.1 / 128
      Tab.set falseD t b (if p.2 = 128 then poison else Tab.get falseD t b || poison)) x.lpois }

/-- The Ledge, its poison and its zero map cleared by zeros written over all of it (R392, R518). -/
def ledgeZero (x : Crag) : Crag :=
  { x with ledge := [], lpois := [], zmap := (List.range 16384).map fun h => (h, true) }

/-- Whether a region lies in a declared range; ranges wrap from 255 to 0 (R54). -/
def regionIn (base cnt r : Nat) : Bool := decide ((r + 256 - base % 256) % 256 < cnt)

/-- The first byte of an access outside a declared range (R57). -/
def firstOutside (base cnt a n : Nat) : Option Nat :=
  ((List.range ((a % 4096 + n + 4095) / 4096)).map fun i => max a ((a / 4096 + i) * 4096)).find? fun b =>
    !regionIn base cnt (ledgeWrap b / 4096)

/-- Why a macro-op stops its party: the kind of fault, the ADDR of its message, and the Crag with what the op had written by then. -/
structure OpErr where
  kind : Nat
  addr : Nat
  left : Option Crag
  deriving DecidableEq, Repr

/-- ADDR of LEDGE_BOUNDS (Table 17.3). -/
def boundsErr (p : Packet) (a : Nat) (write : Bool) (left : Crag) : OpErr :=
  ⟨0x04, ledgeWrap a + seqOf p * 2 ^ 20 + b2n write * 2 ^ 28, some left⟩

/-- A macro-op's read of the Ledge (R57). -/
def opRead (x : Crag) (p : Packet) (a n : Nat) : Except OpErr (List Byte × Bool) :=
  match firstOutside (rdBase p) (rdCnt p) a n with
  | some b => .error (boundsErr p b false x)
  | none => .ok (ledgeGet x a n, ledgePois x a n)

/-- A macro-op's write of the Ledge (R57): what lies before the first byte outside the range is written. -/
def opWrite (x : Crag) (p : Packet) (a : Nat) (bs : List Byte) (poison : Bool) : Except OpErr Crag :=
  match firstOutside (wrBase p) (wrCnt p) a bs.length with
  | some b => .error (boundsErr p b true (ledgePut x a (bs.take (b - a)) poison))
  | none => .ok (ledgePut x a bs poison)

/-! ## Queues -/

/-- A push or pop of a queue returns the deadlock count to zero (R96). -/
def qMoved (x : Crag) : Crag := { x with region := { x.region with blocked := 0 } }

/-- Pushes an entry; the slot number of the next push wraps at 32 (R78, Table 3.7). -/
def qPush (x : Crag) (q : Nat) (e : Entry) : Crag :=
  let k := getQueue x q
  setQueue (qMoved x) q { k with ents := k.ents ++ [e], tail := (k.tail + 1) % 32 }

def qPop (x : Crag) (q : Nat) : Crag :=
  let k := getQueue x q
  setQueue (qMoved x) q { k with ents := k.ents.drop 1, head := (k.head + 1) % 32 }

def qFull (x : Crag) (q : Nat) : Bool := decide (32 ≤ (getQueue x q).ents.length)
def qEmpty (x : Crag) (q : Nat) : Bool := decide ((getQueue x q).ents.length = 0)

/-- The bytes of an entry as the consumer sees them: beyond the valid count they read as zero (R77). -/
def entryBytes (e : Entry) : List Byte := padTo 128 0 (e.bytes.take 128)

/-- Bytes cut into queue entries; the last one carries LAST (R77). -/
def entriesOf (bs : List Byte) (poison : Bool) : List Entry :=
  let cs := chunks 128 bs
  cs.mapIdx fun i c => { bytes := c, last := i + 1 = cs.length, poison := poison }

/-- Pushes as many pending entries as their queues take, each queue's in order. -/
def pushMany (x : Crag) : List (Nat × Entry) → Crag × List (Nat × Entry)
  | [] => (x, [])
  | e :: es =>
    if qFull x e.1 then
      let r := pushMany x es
      (r.1, e :: r.2)
    else pushMany (qPush x e.1 e.2) es

/-- Pops up to n entries: what is still to pop, the Crag, the entries. -/
def popMany (x : Crag) (q : Nat) : Nat → Crag × Nat × List Entry
  | 0 => (x, 0, [])
  | n + 1 =>
    match (getQueue x q).ents with
    | [] => (x, n + 1, [])
    | e :: _ =>
      let (x, k, es) := popMany (qPop x q) q n
      (x, k, e :: es)

/-! ## Start order -/

/-- Ops of a Crag dispatched before op n and not completed. -/
def earlier (x : Crag) (n : Nat) : List Op := x.ops.filter fun o => decide (o.n < n)

/-- Whether two declared ranges share a region. -/
def overlap (b1 c1 b2 c2 : Nat) : Bool :=
  (List.range (min c1 256)).any fun i => regionIn b2 c2 (b1 + i)

/-- One op writes a region that the other reads, or both write one (R54). -/
def conflict (a b : Packet) : Bool :=
  overlap (wrBase a) (wrCnt a) (rdBase b) (rdCnt b) || overlap (rdBase a) (rdCnt a) (wrBase b) (wrCnt b) ||
    overlap (wrBase a) (wrCnt a) (wrBase b) (wrCnt b)

def conflictAny (ps qs : List Packet) : Bool := ps.any fun p => qs.any fun q => conflict p q

/-- The packets whose declared ranges an op holds: its own and its chain's. -/
def Op.packets (o : Op) : List Packet := o.pkt :: o.members

def sbHeld (x : Crag) (o : Op) : Bool := (earlier x o.n).any fun e => conflictAny e.packets o.packets

/-- Queue ends an op names, as operand fields. -/
def queueEnds (o : Op) : List Nat :=
  (o.packets.flatMap fun p => [srcA p, srcB p, srcC p, dstOf p]).filter fun f =>
    match opnd f with
    | .queue _ => true
    | _ => false

/-- Held by a queue end that an earlier op of the unit holds (R79). -/
def queueHeld (x : Crag) (o : Op) : Bool :=
  (earlier x o.n).any fun e => decide (e.unit = o.unit) && (queueEnds e).any fun f => decide (f ∈ queueEnds o)

/-- A stream that waits under ORDER has not started (R83). -/
def Op.started (o : Op) : Bool := o.stage ≠ .dispatched && o.stage ≠ .ordered

/-- Macro-ops of one unit start in dispatch order (R37): every earlier op of the unit has started. -/
def orderOk (x : Crag) (o : Op) : Bool := (earlier x o.n).all fun e => e.unit ≠ o.unit || e.started

/-- Held by an earlier BELAY.WAIT of the unit, or by one with BOTH set (R274). -/
def waitHeld (x : Crag) (o : Op) : Bool :=
  (earlier x o.n).any fun e => decide (opcOf e.pkt = 0x81) && (decide (e.unit = o.unit) || bit e.pkt 148)

/-- Engines that run one op at a time: the fabric (R117), the Gather-and-Merge Engine with the pruning unit beside it (R158,
Table 5.6), the Vector Engine, and the AU's gather engine, which also carries out POOL (R244), and its update engine (R37, Table 2.1; log
entry 21). -/
def engineOf (p : Packet) : Nat :=
  let o := opcOf p
  if o = 0x2C then 2
  else if 0x20 ≤ o ∧ o ≤ 0x37 then 1
  else if 0x38 ≤ o ∧ o ≤ 0x3F then 2
  else if isVector o then 3
  else if isGather o ∨ (0x70 ≤ o ∧ o ≤ 0x77) then 4
  else if isEupd o then 6
  else 0

def engineBusy (x : Crag) (o : Op) : Bool :=
  engineOf o.pkt ≠ 0 && (earlier x o.n).any fun e => decide (engineOf e.pkt = engineOf o.pkt) && e.started

/-- SMMA.A and SMMA.AW, which hold the fabric and the Gather-and-Merge Engine both (R158, Table 5.6). -/
def smmaGm (p : Packet) : Bool := opcOf p = 0x28 || opcOf p = 0x2A

/-- SMMA.A or SMMA.AW beside another op of the Gather-and-Merge Engine (R158). -/
def smmaBusy (x : Crag) (o : Op) : Bool :=
  let gm := fun (p : Packet) => decide (engineOf p = 2)
  (earlier x o.n).any fun e => e.started && ((smmaGm e.pkt && gm o.pkt) || (gm e.pkt && smmaGm o.pkt))

/-- Whether a dispatched op may start now (R37, R54, R68, R79, R274, R398). -/
def startable (w : Work) (c : Nat) (o : Op) : Bool :=
  let x := getCrag w c
  o.stage = .dispatched && !x.fe.frozen && cragPresent w c && canRun w (tenOfCrag w c) && orderOk x o && !sbHeld x o &&
    !queueHeld x o && !waitHeld x o && !engineBusy x o && !smmaBusy x o

/-- SEQ last started of the unit (Table 2.13); of a vector chain, its head's (log entry 148). A start ends the cycles counted toward Bivouac and deadlock (R96, R304). -/
def startSeq (x : Crag) (o : Op) : Crag :=
  let v : BitVec 8 := BitVec.ofNat 8 (seqOf o.pkt)
  { x with fe := if o.unit = 0 then { x.fe with seqAu := v } else { x.fe with seqEu := v }
           idle := 0
           region := { x.region with blocked := 0 } }

/-- Every earlier op of the Crag completed and acknowledged, every earlier post applied (R277). -/
def ackedBefore (w : Work) (c n : Nat) : Bool :=
  decide ((earlier (getCrag w c) n).length = 0) &&
    w.posts.all fun p => match p.crag with
      | some (k, m) => !(decide (k = c) && decide (m < n))
      | none => true

/-! ## Posts -/

/-- Signaller of a Crag unit (Table 9.10). -/
def sigCrag (w : Work) (c unit : Nat) : W32 := BitVec.ofNat 32 (devId w + c * 2 ^ 18 + unit * 2 ^ 26)

/-- A post sets out for its slice. -/
def sendPost (w : Work) (b inc : Nat) (sig : W32) (crag : Option (Nat × Nat)) : Work :=
  { w with posts := w.posts ++ [{ belay := b, inc := BitVec.ofNat 32 inc, sig := sig, crag := crag, reply := none }] }

/-! ## Stream positions -/

/-- Records the position and address of a channel's element k (R113, R116). Dimensions NDIM and above, and CH_IDXPOS of a stream without
an index tensor, read 0 (log entry 146). -/
def recordAt (h : Chan) (k addr : Nat) : Chan :=
  let d := h.desc
  { h with
    pos := (List.range 5).map fun i => if i < dNdim d then dCoord d k i else 0
    idxPos := BitVec.ofNat 32 (if dIdx d then dIdxPos d k else 0)
    faultVa := BitVec.ofNat 48 (if dCmp d then dAddr d k 0 else addr) }

/-- Address of the next element of a channel (R87): its index as the channel has it, else as the index tensor holds it. -/
def elemAddr (w : Work) (c : Nat) (h : Chan) : Nat :=
  let d := h.desc
  let j := dIdxPos d h.next
  let n := dIdxBytes d
  let a := dIdxBase d + n * j
  let there := if dIdxLedge d then leNat (ledgeGet (getCrag w c) (a % 2 ^ 20) n)
    else leNat (vRead w (.crag c) (req (dClass d) (tenOfCrag w c)) (a % 2 ^ 48) n).2.1
  let v := match h.idxAt with
    | some (i, v, _) => if i = j then v else there
    | none => there
  dAddr d h.next (if dIdx d then v else 0)

/-- The position and address of the next element not yet delivered or written (Table 3.10). When none is left the coordinates have wrapped
to 0 (log entry 146). -/
def recordFirst (w : Work) (c : Nat) (h : Chan) : Chan :=
  match h.owed with
  | e :: _ => recordAt h e.1 e.2
  | [] => recordAt h h.next (elemAddr w c h)

/-! ## Party stop -/

/-- A Crag frozen by a party stop (R68): nothing is cleared. Its running channels record their positions (R116), it
leaves Bivouac (R305), and its region stops being open (R103). -/
def freezeCrag (w : Work) (c : Nat) : Work :=
  let x := getCrag w c
  if x.fe.frozen then w
  else
    let chans := Tab.mapV chanD (fun _ h =>
      if h.state = 0 then h else { (if h.state = 3 then h else recordFirst w c h) with state := 5 }) x.chans
    setCrag w c { x with chans := chans, bivouac := false, idle := 0, region := { x.region with state := 0 },
                         fe := { x.fe with frozen := true } }

/-- Whether some party of a tenancy has a scheduled region open (R103). -/
def regionOpen (w : Work) (t : Nat) : Bool := (tenCrags w t).any fun c => decide ((getCrag w c).region.state = 2)

/-- A deferred slice end takes effect once no region of the tenancy is open (R103; log entry 147: of any of its Crags). -/
def settleSlice (w : Work) (t : Nat) : Work :=
  let x := getTen w t
  if x.deferred && !regionOpen w t then setTen w t { x with deferred := false, holds := false } else w

/-- A party stops (R68): its leader enters FAULTED, its Crags freeze. -/
def stopParty (w : Work) (lead : Nat) : Work :=
  let w := setSummit w lead { getSummit w lead with state := .faulted, stall := none, haltReq := false, runHeld := false }
  let w := (partyCrags w lead).foldl freezeCrag w
  settleSlice w (tenOfSpur w lead)

/-- A contained fault of a Crag that stops its party (R68). -/
def cragFault (w : Work) (c kind addr : Nat) : Work :=
  stopParty (raise w (srcCrag w c) kind (tenOfCrag w c) addr) (leaderOfCrag w c)

/-- The Crag as an op's error leaves it: what the op wrote before it stands (R57). -/
def leaveOf (w : Work) (c : Nat) (e : OpErr) : Work :=
  match e.left with
  | some x => setCrag w c x
  | none => w

/-- An op's error stops its party. -/
def opFault (w : Work) (c : Nat) (e : OpErr) : Work := cragFault (leaveOf w c e) c e.kind e.addr

/-- A contained fault of a Crag after which its party goes on. -/
def cragNote (w : Work) (c kind addr : Nat) : Work := raise w (srcCrag w c) kind (tenOfCrag w c) addr

/-- BELAY_RANGE against a Crag (R268). -/
def belayRange (w : Work) (c b dev : Nat) : Work :=
  let x := getCrag w c
  cragFault (setCrag w c { x with ac := { x.ac with bRange := true } }) c 0x21 (b + dev * 2 ^ 16)

/-! ## Completion -/

/-- Ops that report an element count (R65): not SUMMARY. -/
def countsOf (p : Packet) : Bool := opcOf p ≠ 8

/-- The channel of a stream made free; OPC, SEQ, CH_DONE and the flags keep the values of its last op (log entry 146). -/
def freeChan (x : Crag) (o : Op) : Crag :=
  if isStream (opcOf o.pkt) then
    let h := getChan x (strmCh o.pkt)
    if h.op = o.n then setChan x (strmCh o.pkt) { h with state := 0, pack := [], pages := [], asked := false } else x
  else x

/-- A POOL, POOL.PREFETCH or EUPD (Table 8.3). -/
def isEmb (o : Nat) : Bool := 0x70 ≤ o && o ≤ 0x7F

/-- CRAG_EMBSTAT.STATE of an op at work (Table 8.9). -/
def embStateOf (o : Op) : Nat :=
  match o.stage with
  | .reading => 2
  | .gathering => 3
  | .draining => 3
  | .waiting => 4
  | _ => 1

/-- Engine state registers show idle again; CRAG_EMBSTAT goes on to show another of its ops that is at work. -/
def idleEngine (x : Crag) (o : Op) : Crag :=
  let e := engineOf o.pkt
  if e = 2 ∨ smmaGm o.pkt then { x with ex := { x.ex with gstate := 0 } }
  else if e = 3 then { x with ex := { x.ex with vstate := 0 } }
  else if isGather (opcOf o.pkt) then { x with ac := { x.ac with gthState := 0, goutst := 0 } }
  else if isEmb (opcOf o.pkt) then
    match x.ops.find? fun q => q.started && isEmb (opcOf q.pkt) with
    | none => { x with ac := { x.ac with embState := 0 } }
    | some q => { x with ac := { x.ac with
        embState := embStateOf q, embOpc := BitVec.ofNat 8 (opcOf q.pkt), embSeq := BitVec.ofNat 8 (seqOf q.pkt) } }
  else x

/-- A macro-op completes (R56, R65, R85, R98, R140): its regions and queue ends are released with it, its count stands for the unit, a
fabric op's flags are set, the region's head opens the region, STREAM.CLOSE closes it, and a stream with POST makes its post (R94). -/
def finishOp (w : Work) (c : Nat) (o : Op) : Work :=
  let x := getCrag w c
  let x := { x with ops := x.ops.filter fun p => p.n ≠ o.n
                    ex := { x.ex with fflags := x.ex.fflags ||| o.ffl, vflags := x.ex.vflags ||| o.vfl } }
  let x := idleEngine (freeChan x o) o
  let x := if countsOf o.pkt then (if o.unit = 0 then { x with cntAu := o.count } else { x with cntEu := o.count }) else x
  let opc := opcOf o.pkt
  let x := if opc = 0x81 ∧ o.head ∧ !o.abandoned ∧ x.region.state = 1 then
      { x with region := { x.region with state := 2, timer := 0, waitAu := 0, waitEu := 0 } }
    else if opc = 0x1D then { x with region := { x.region with state := 0 } }
    else x
  let w := setCrag w c x
  let w := if opc = 0x1D then settleSlice w (tenOfCrag w c) else w
  if o.posts then
    let b := dBelay (getChan x (strmCh o.pkt)).desc
    if mayBelay w (tenOfCrag w c) 33 b then sendPost w b 1 (sigCrag w c o.unit) (some (c, o.n))
    else belayRange w c b (devId w)
  else w

end Sys2Proof.Machine
end

