-- ==== Sys2Proof/Machine/Flags.lean ====
section
/-! DEFINITION. The sticky flags of the fabric (R140, Table 4.8) and of the Vector Engine (R204, Table 6.8): one record
of raised conditions, and its two layouts. -/

namespace Sys2Proof

/-- Conditions raised by one operation. -/
structure Fl where
  inv : Bool   -- INVALID
  dz  : Bool   -- DIVZERO
  ovf : Bool   -- OVERFLOW
  unf : Bool   -- UNDERFLOW
  inx : Bool   -- INEXACT
  nan : Bool   -- NAN_IN
  sat : Bool   -- INT_SAT
  wrp : Bool   -- INT_WRAP
  deriving DecidableEq, Repr

namespace Machine

def flNone : Fl := ⟨false, false, false, false, false, false, false, false⟩
def flInv : Fl := { flNone with inv := true }
def flDz : Fl := { flNone with dz := true }
def flOvf : Fl := { flNone with ovf := true }
def flNan : Fl := { flNone with nan := true }
def flSat : Fl := { flNone with sat := true }

/-- Flags raised by two operations. -/
def flOr (a b : Fl) : Fl :=
  ⟨a.inv || b.inv, a.dz || b.dz, a.ovf || b.ovf, a.unf || b.unf, a.inx || b.inx, a.nan || b.nan, a.sat || b.sat,
   a.wrp || b.wrp⟩

/-- CRAG_FFLAGS bits (Table 4.8). -/
def flFabric (f : Fl) : BitVec 6 :=
  BitVec.ofNat 6 (b2n f.inv + 2 * b2n f.ovf + 4 * b2n f.unf + 8 * b2n f.inx + 16 * b2n f.nan + 32 * b2n f.wrp)

/-- VFLAGS bits (Table 6.8). -/
def flVector (f : Fl) : BitVec 7 :=
  BitVec.ofNat 7 (b2n f.inv + 2 * b2n f.dz + 4 * b2n f.ovf + 8 * b2n f.unf + 16 * b2n f.inx + 32 * b2n f.nan +
    64 * b2n f.sat)

/-- What a fabric op ORs into VFLAGS: INVALID, OVERFLOW, UNDERFLOW, INEXACT and NAN_IN (R140). -/
def flFabricToV (f : Fl) : BitVec 7 := flVector { f with dz := false, sat := false }

end Machine
end Sys2Proof
end

