-- ==== Sys2Proof/Machine/Float.lean ====
section
/-! DEFINITION. The number formats (R125 to R127, Table 4.3) and IEEE 754 arithmetic in FP32 with one rounding. A
finite value is an exact dyadic number; every operation computes exactly and rounds once. -/

namespace Sys2Proof

namespace Machine

/-- A value of a floating format: NaN, an infinity, or (-1)^neg * man * 2^exp. -/
inductive FVal where
  | nan
  | inf (neg : Bool)
  | fin (neg : Bool) (man : Nat) (exp : Int)
  deriving DecidableEq, Repr

/-- A floating format: exponent and mantissa widths, bias, whether it has infinities, whether it has NaN. -/
structure FFmt where
  ebits : Nat
  mbits : Nat
  bias  : Nat
  hasInf : Bool
  hasNan : Bool
  deriving DecidableEq, Repr

def fp32 : FFmt := ⟨8, 23, 127, true, true⟩
def fp16 : FFmt := ⟨5, 10, 15, true, true⟩
def bf16 : FFmt := ⟨8, 7, 127, true, true⟩
def e4m3 : FFmt := ⟨4, 3, 7, false, true⟩
def e5m2 : FFmt := ⟨5, 2, 15, true, true⟩
def e3m2 : FFmt := ⟨3, 2, 3, false, false⟩
def e2m1 : FFmt := ⟨2, 1, 1, false, false⟩

/-- The floating formats by code (Table 4.3); none for the integer formats 7 to 9. -/
def floatFmt : Nat → Option FFmt
  | 0 => some fp32
  | 1 => some fp16
  | 2 => some bf16
  | 3 => some e4m3
  | 4 => some e5m2
  | 5 => some e3m2
  | 6 => some e2m1
  | _ => none

/-- Width in bits of a format (Table 4.3). -/
def fmtBits : Nat → Nat
  | 0 => 32 | 1 => 16 | 2 => 16 | 3 => 8 | 4 => 8 | 5 => 6 | 6 => 4 | 7 => 8 | 8 => 4 | _ => 32

/-- Integer formats INT8, INT4, INT32. -/
def fmtIsInt (c : Nat) : Bool := 7 ≤ c

/-- Greatest magnitude code of a format's finite values. -/
def FFmt.maxCode (f : FFmt) : Nat :=
  if f.hasInf then (2 ^ f.ebits - 1) * 2 ^ f.mbits - 1
  else if f.hasNan then 2 ^ (f.ebits + f.mbits) - 2
  else 2 ^ (f.ebits + f.mbits) - 1

/-- Exponent of the last place of the subnormals. -/
def FFmt.qmin (f : FFmt) : Int := 1 - (f.bias : Int) - (f.mbits : Int)

/-- The value a code stands for. Formats without infinity use every exponent for finite numbers, but that E4M3 holds
NaN where exponent and mantissa are all ones (Table 4.3). -/
def FFmt.decode (f : FFmt) (c : Nat) : FVal :=
  let neg := c / 2 ^ (f.ebits + f.mbits) % 2 = 1
  let mag := c % 2 ^ (f.ebits + f.mbits)
  let e := mag / 2 ^ f.mbits
  let m := mag % 2 ^ f.mbits
  if f.maxCode < mag then
    if f.hasInf && m = 0 then .inf neg else .nan
  else if e = 0 then .fin neg m f.qmin
  else .fin neg (2 ^ f.mbits + m) (f.qmin + (e : Int) - 1)

/-- The canonical NaN of a format; 0 where it has none (R134). -/
def FFmt.nanCode (f : FFmt) : Nat :=
  if f.hasInf then (2 ^ f.ebits - 1) * 2 ^ f.mbits + 2 ^ (f.mbits - 1)
  else if f.hasNan then 2 ^ (f.ebits + f.mbits) - 1
  else 0

/-- How a result is rounded: to nearest even, or stochastically with a random word (R131, R135). -/
inductive Rnd where
  | rne
  | sto (u : Nat)

/-- A magnitude man * 2^exp (and a little more when sticky) rounded to a multiple of 2^q: the kept integer and whether
anything was discarded. -/
def roundTo (r : Rnd) (man : Nat) (exp q : Int) (sticky : Bool) : Nat × Bool :=
  if q ≤ exp then (man * 2 ^ (exp - q).toNat, sticky)
  else
    let d := (q - exp).toNat
    let kept := man / 2 ^ d
    let rest := man % 2 ^ d
    let up := match r with
      | .rne => 2 ^ d < 2 * rest || (2 ^ d = 2 * rest && (sticky || kept % 2 = 1))
      | .sto u => 2 ^ 16 ≤ rest * 2 ^ 16 / 2 ^ d + u % 2 ^ 16
    (if up then kept + 1 else kept, rest ≠ 0 || sticky)

/-- Length of a number in bits. -/
def bitLen (n : Nat) : Nat := if n = 0 then 0 else n.log2 + 1

/-- Whether a magnitude of leading place top (the exponent of its last kept place, were there no least one) is tiny: still below the least
normal number after rounding with an unbounded exponent, or, where the part detects tininess before rounding, only
before (log entry 13). -/
def FFmt.tiny (f : FFmt) (r : Rnd) (man : Nat) (exp top : Int) (sticky : Bool) : Bool :=
  decide (top < f.qmin) &&
    (decide (top + b2n (2 ^ (f.mbits + 1) ≤ (roundTo r man exp top sticky).1) < f.qmin) || Config.tinyBefore)

/-- A magnitude rounded into a format: its code without the sign, and the flags (R134, R140). -/
def FFmt.encodeMag (f : FFmt) (r : Rnd) (man : Nat) (exp : Int) (sticky : Bool) : Nat × Fl :=
  if man = 0 ∧ sticky = false then (0, flNone)
  else
    let top : Int := exp + (bitLen man : Int) - 1 - (f.mbits : Int)
    let q := max f.qmin top
    let (k, inx) := roundTo r man exp q sticky
    let code := if k < 2 ^ f.mbits then k else k + (q - f.qmin).toNat * 2 ^ f.mbits
    if f.maxCode < code then
      (if f.hasInf then (2 ^ f.ebits - 1) * 2 ^ f.mbits else f.maxCode, { flNone with ovf := true, inx := true })
    else (code, { flNone with inx := inx, unf := inx && f.tiny r man exp top sticky })

/-- A value rounded into a format (R134). -/
def FFmt.encode (f : FFmt) (r : Rnd) : FVal → Nat × Fl
  | .nan => (f.nanCode, if f.hasNan then flNone else flInv)
  | .inf neg =>
    ((if f.hasInf then (2 ^ f.ebits - 1) * 2 ^ f.mbits else f.maxCode) + b2n neg * 2 ^ (f.ebits + f.mbits),
      if f.hasInf then flNone else { flNone with ovf := true })
  | .fin neg man exp =>
    let (c, fl) := f.encodeMag r man exp false
    (c + b2n neg * 2 ^ (f.ebits + f.mbits), fl)

/-- FP32 codes as values. -/
def f32 (c : W32) : FVal := fp32.decode c.toNat

/-- A magnitude rounded to FP32, as a value. -/
def rnd32 (neg : Bool) (man : Nat) (exp : Int) (sticky : Bool) : FVal × Fl :=
  let (c, fl) := fp32.encodeMag .rne man exp sticky
  (fp32.decode (c + b2n neg * 2 ^ 31), fl)

/-- The FP32 code of a value that FP32 holds exactly. -/
def code32 (v : FVal) : W32 := BitVec.ofNat 32 (fp32.encode .rne v).1

def fzero : FVal := .fin false 0 0
def fone : FVal := .fin false 1 0

/-- Exact sum of two finite values as sign, magnitude, exponent; the sign of an exact zero as IEEE 754 gives it under
round to nearest. -/
def exactAdd (n1 : Bool) (m1 : Nat) (e1 : Int) (n2 : Bool) (m2 : Nat) (e2 : Int) : Bool × Nat × Int :=
  let e := min e1 e2
  let a : Int := (if n1 then -1 else 1) * (m1 * 2 ^ (e1 - e).toNat : Nat)
  let b : Int := (if n2 then -1 else 1) * (m2 * 2 ^ (e2 - e).toNat : Nat)
  let s := a + b
  (if s = 0 then (n1 && n2) else decide (s < 0), s.natAbs, e)

def fadd : FVal → FVal → FVal × Fl
  | .nan, _ => (.nan, flNone)
  | _, .nan => (.nan, flNone)
  | .inf a, .inf b => if a = b then (.inf a, flNone) else (.nan, flInv)
  | .inf a, .fin _ _ _ => (.inf a, flNone)
  | .fin _ _ _, .inf b => (.inf b, flNone)
  | .fin n1 m1 e1, .fin n2 m2 e2 =>
    let (n, m, e) := exactAdd n1 m1 e1 n2 m2 e2
    rnd32 n m e false

def fneg : FVal → FVal
  | .nan => .nan
  | .inf n => .inf !n
  | .fin n m e => .fin (!n) m e

def fabs : FVal → FVal
  | .nan => .nan
  | .inf _ => .inf false
  | .fin _ m e => .fin false m e

def fsub (a b : FVal) : FVal × Fl := fadd a (fneg b)

/-- The exact product; none where it is NaN, an infinity stays one. -/
def exactMul : FVal → FVal → FVal × Fl
  | .nan, _ => (.nan, flNone)
  | _, .nan => (.nan, flNone)
  | .inf a, .inf b => (.inf (a != b), flNone)
  | .inf a, .fin b m _ => if m = 0 then (.nan, flInv) else (.inf (a != b), flNone)
  | .fin a m _, .inf b => if m = 0 then (.nan, flInv) else (.inf (a != b), flNone)
  | .fin n1 m1 e1, .fin n2 m2 e2 => (.fin (n1 != n2) (m1 * m2) (e1 + e2), flNone)

/-- A value rounded to FP32 by round to nearest even. -/
def to32 : FVal → FVal × Fl
  | .fin n m e => rnd32 n m e false
  | v => (v, flNone)

def fmul (a b : FVal) : FVal × Fl :=
  let (p, f1) := exactMul a b
  let (r, f2) := to32 p
  (r, flOr f1 f2)

/-- a * b + c rounded once. -/
def ffma (a b c : FVal) : FVal × Fl :=
  match exactMul a b with
  | (.nan, f) => (.nan, f)
  | (p, _) =>
    match p, c with
    | _, .nan => (.nan, flNone)
    | .inf x, .inf y => if x = y then (.inf x, flNone) else (.nan, flInv)
    | .inf x, _ => (.inf x, flNone)
    | _, .inf y => (.inf y, flNone)
    | .fin n1 m1 e1, .fin n2 m2 e2 =>
      let (n, m, e) := exactAdd n1 m1 e1 n2 m2 e2
      rnd32 n m e false
    | .nan, _ => (.nan, flNone)

/-- Exact order of two values that are not NaN, with -0 below +0 (R130). -/
def fltTotal : FVal → FVal → Bool
  | .inf a, .inf b => a && !b
  | .inf a, .fin _ _ _ => a
  | .fin _ _ _, .inf b => !b
  | .fin n1 m1 e1, .fin n2 m2 e2 =>
    let (n, m, _) := exactAdd n1 m1 e1 (!n2) m2 e2
    if m = 0 then n1 && !n2 else n
  | _, _ => false

/-- IEEE comparison less-than: the two zeros are equal. -/
def flt (a b : FVal) : Bool :=
  match a, b with
  | .fin _ 0 _, .fin _ 0 _ => false
  | _, _ => fltTotal a b

def feq : FVal → FVal → Bool
  | .nan, _ => false
  | _, .nan => false
  | a, b => !flt a b && !flt b a

def fmin (a b : FVal) : FVal :=
  match a, b with
  | .nan, _ => .nan
  | _, .nan => .nan
  | a, b => if fltTotal b a then b else a

def fmax (a b : FVal) : FVal :=
  match a, b with
  | .nan, _ => .nan
  | _, .nan => .nan
  | a, b => if fltTotal a b then b else a

def fIsNan : FVal → Bool
  | .nan => true
  | _ => false

/-- Division, rounded once; R198 gives the special operands. -/
def fdiv : FVal → FVal → FVal × Fl
  | .nan, _ => (.nan, flNone)
  | _, .nan => (.nan, flNone)
  | .inf _, .inf _ => (.nan, flInv)
  | .inf a, .fin b _ _ => (.inf (a != b), flNone)
  | .fin a _ _, .inf b => (.fin (a != b) 0 0, flNone)
  | .fin n1 m1 e1, .fin n2 m2 e2 =>
    if m2 = 0 then (if m1 = 0 then (.nan, flInv) else (.inf (n1 != n2), flDz))
    else
      let k := bitLen m2 + 64
      let q := m1 * 2 ^ k / m2
      rnd32 (n1 != n2) q (e1 - (k : Int) - e2) (m1 * 2 ^ k % m2 ≠ 0)

/-- Integer square root, one result bit a step from bit n - 1 down. -/
def isqrtAux (x : Nat) : Nat → Nat → Nat
  | 0, r => r
  | n + 1, r => isqrtAux x n (if (r + 2 ^ n) * (r + 2 ^ n) ≤ x then r + 2 ^ n else r)

def isqrt (x : Nat) : Nat := isqrtAux x (bitLen x / 2 + 1) 0

/-- Square root as magnitude, exponent and sticky of man * 2^exp. -/
def sqrtMag (man : Nat) (exp : Int) : Nat × Int × Bool :=
  let (m, e) := if exp % 2 = 0 then (man, exp) else (2 * man, exp - 1)
  let s := m * 2 ^ 128
  let r := isqrt s
  (r, e / 2 - 64, r * r ≠ s)

def fsqrt : FVal → FVal × Fl
  | .nan => (.nan, flNone)
  | .inf false => (.inf false, flNone)
  | .inf true => (.nan, flInv)
  | .fin n m e =>
    if m = 0 then (.fin n 0 0, flNone)
    else if n then (.nan, flInv)
    else
      let (r, x, st) := sqrtMag m e
      rnd32 false r x st

/-- 1 / sqrt(a): the exact value rounded once. -/
def frsqrt : FVal → FVal × Fl
  | .nan => (.nan, flNone)
  | .inf false => (fzero, flNone)
  | .inf true => (.nan, flInv)
  | .fin n m e =>
    if m = 0 then (.inf n, flDz)
    else if n then (.nan, flInv)
    else
      -- 1/sqrt(m 2^e) = sqrt(2^(2k) / m) * 2^(-e/2 - k), e made even
      let (m', e') := if e % 2 = 0 then (m, e) else (2 * m, e - 1)
      let k := bitLen m' + 80
      let s := 2 ^ (2 * k) / m'
      let r := isqrt s
      rnd32 false r (-(e' / 2) - (k : Int)) (r * r ≠ s || 2 ^ (2 * k) % m' ≠ 0)

/-- Fraction bits of the fixed-point evaluation of EXP2 and LOG2 (log entry 14). -/
def fxp : Nat := 400

/-- Product of 2^(2^-i) over the fraction bits that are set, bit by bit from the most significant: f is what is left
of the fraction (fxp bits), c the current root, acc the product. -/
def exp2Aux : Nat → Nat → Nat → Nat → Nat
  | 0, _, _, acc => acc
  | n + 1, f, c, acc =>
    let f2 := 2 * f
    let c' := isqrt (c * 2 ^ fxp)
    if 2 ^ fxp ≤ f2 then exp2Aux n (f2 - 2 ^ fxp) c' (acc * c' / 2 ^ fxp)
    else exp2Aux n f2 c' acc

/-- 2^a rounded once (R198). -/
def fexp2 : FVal → FVal × Fl
  | .nan => (.nan, flNone)
  | .inf false => (.inf false, flNone)
  | .inf true => (fzero, flNone)
  | .fin n m e =>
    if m = 0 then (fone, flNone)
    else if (10 : Int) < e + (bitLen m : Int) then
      if n then rnd32 false 1 (-1000) true else rnd32 false 1 1000 true
    else
      -- a as a fixed-point number of fxp fraction bits; e is at least -149 for FP32
      let mag := m * 2 ^ (e + (fxp : Int)).toNat
      let a : Int := if n then -(mag : Int) else (mag : Int)
      let ip := a / (2 ^ fxp : Nat)
      let fr := (a % (2 ^ fxp : Nat)).toNat
      if fr = 0 then rnd32 false 1 ip false
      else
        rnd32 false (exp2Aux 200 fr (2 * 2 ^ fxp) (2 ^ fxp)) (ip - (fxp : Int)) true

/-- Fraction bits of log2 of x in [1, 2), most significant first, by repeated squaring. -/
def log2Aux : Nat → Nat → Nat → Nat
  | 0, _, acc => acc
  | n + 1, x, acc =>
    let y := x * x / 2 ^ fxp
    if 2 * 2 ^ fxp ≤ y then log2Aux n (y / 2) (2 * acc + 1) else log2Aux n y (2 * acc)

/-- log2 a rounded once (R198). -/
def flog2 : FVal → FVal × Fl
  | .nan => (.nan, flNone)
  | .inf false => (.inf false, flNone)
  | .inf true => (.nan, flInv)
  | .fin n m e =>
    if m = 0 then (.inf true, flDz)
    else if n then (.nan, flInv)
    else
      let l := bitLen m - 1
      let ip : Int := e + (l : Int)
      if m = 2 ^ l then rnd32 (ip < 0) ip.natAbs 0 false
      else
        let fr := log2Aux 120 (m * 2 ^ fxp / 2 ^ l) 0
        let s : Int := ip * (2 ^ 120 : Nat) + (fr : Int)
        if s < 0 then rnd32 true (s.natAbs - 1) (-120) true
        else rnd32 false s.toNat (-120) true

/-- A value rounded to an integer by round to nearest even and saturated to w bits two's complement (R134): the code
and the flags. -/
def toIntSat (w : Nat) : FVal → Nat × Fl
  | .nan => (0, flInv)
  | .inf n => (if n then 2 ^ (w - 1) else 2 ^ (w - 1) - 1, { flNone with ovf := true, sat := true })
  | .fin n m e =>
    let (k, inx) := roundTo .rne m e 0 false
    let i : Int := if n then -(k : Int) else (k : Int)
    if i < -((2 ^ (w - 1) : Nat) : Int) then
      (2 ^ (w - 1), { flNone with ovf := true, sat := true, inx := inx })
    else if ((2 ^ (w - 1) : Nat) : Int) ≤ i then
      (2 ^ (w - 1) - 1, { flNone with ovf := true, sat := true, inx := inx })
    else (ofInt w i, { flNone with inx := inx })

/-- The exact value of an integer. -/
def ofIntF (i : Int) : FVal := .fin (i < 0) i.natAbs 0

/-- The value of an element code in any format, exactly. -/
def elemVal (fmt c : Nat) : FVal :=
  match floatFmt fmt with
  | some f => f.decode c
  | none => ofIntF (toSigned (fmtBits fmt) c)

/-- A floating value converted to a format (R134): code and flags. -/
def convF (fmt : Nat) (r : Rnd) (v : FVal) : Nat × Fl :=
  match floatFmt fmt with
  | some f => f.encode r v
  | none => toIntSat (fmtBits fmt) v

/-- An integer converted to a format: exact or saturated for an integer format, rounded for a floating one. -/
def convI (fmt : Nat) (r : Rnd) (i : Int) : Nat × Fl := convF fmt r (ofIntF i)

/-- The value 2^(e - 127) of an E8M0 scale; 0xFF stands for NaN (R127). -/
def scaleVal (e : Nat) : FVal := if e = 255 then .nan else .fin false 1 ((e : Int) - 127)

/-- Philox-4x32-10 (R135): one round. -/
def philoxRound (k0 k1 : Nat) (c : Nat × Nat × Nat × Nat) : Nat × Nat × Nat × Nat :=
  let p0 := 0xD2511F53 * c.1
  let p1 := 0xCD9E8D57 * c.2.2.1
  ((p1 / 2 ^ 32) ^^^ c.2.1 ^^^ k0, p1 % 2 ^ 32, (p0 / 2 ^ 32) ^^^ c.2.2.2 ^^^ k1, p0 % 2 ^ 32)

def philoxAux : Nat → Nat → Nat → Nat × Nat × Nat × Nat → Nat × Nat × Nat × Nat
  | 0, _, _, c => c
  | n + 1, k0, k1, c =>
    philoxAux n ((k0 + 0x9E3779B9) % 2 ^ 32) ((k1 + 0xBB67AE85) % 2 ^ 32) (philoxRound k0 k1 c)

/-- Word w of the four that a key and counter give (log entry 15: the constants are those of the published
generator). -/
def philox (key : Nat × Nat) (ctr : Nat × Nat × Nat × Nat) (w : Nat) : Nat :=
  let c := philoxAux 10 key.1 key.2 ctr
  match w % 4 with
  | 0 => c.1
  | 1 => c.2.1
  | 2 => c.2.2.1
  | _ => c.2.2.2

/-- The random word of output element i of an op (R135). -/
def rndWord (seed : W64) (crag rstream : Nat) (epoch : W64) (i : Nat) : Nat :=
  philox (fld seed 0 32, fld seed 32 32)
    (i / 4 % 2 ^ 32, (crag * 2 ^ 16 + rstream) % 2 ^ 32, fld epoch 0 32, fld epoch 32 32) i

end Machine
end Sys2Proof
end

