-- ==== Sys2Proof/Machine/Fabric.lean ====
section
/-! DEFINITION. The Matrix Fabric (R117 to R142): row images, block scales, the six semirings, the summation tree, conversion
of results, flags, poison and duration. -/

namespace Sys2Proof.Machine

/-! ## What an engine answers -/

/-- The result of an engine's op: the Crag after its Ledge and register writes, the entries for its destination queue,
the element count, and the duration in CCLK cycles. -/
structure EngOut where
  crag   : Crag
  out    : List (Nat × Entry)
  count  : Nat
  cycles : Nat
  ffl    : BitVec 6 := 0   -- flags set when the op completes (R140)
  vfl    : BitVec 7 := 0

/-! ## Row images (R121, R126) -/

/-- Bytes of a row image of n elements: FP6 rows are whole groups of three bytes. -/
def rowBytes (fmt n : Nat) : Nat :=
  let b := if fmt = 5 then (n + 3) / 4 * 3 else (n * fmtBits fmt + 7) / 8
  (b + 127) / 128 * 128

/-- Bytes of a row of block scales (R127). -/
def scaleRow (n : Nat) : Nat := (n + 15) / 16 * 16

/-- A row as its little-endian value, the place of its first byte in that byte's 128 B block, and the poison of each block it lies in. -/
structure Row where
  val  : Nat
  off  : Nat
  pois : List Bool
  deriving DecidableEq, Repr

def rowNone : Row := ⟨0, 0, []⟩

/-- Rows read from the Ledge. -/
def ledgeRows (x : Crag) (p : Packet) (a rows rb : Nat) : Except OpErr (List Row) :=
  (List.range rows).mapM fun r => do
    let (bs, _) ← opRead x p (a + r * rb) rb
    let off := (a + r * rb) % 128
    pure ⟨leNat bs, off, (List.range ((off + rb + 127) / 128)).map fun b => ledgePois x (a + r * rb - off + 128 * b) 128⟩

/-- Rows taken from queue entries: each row image occupies whole entries (R121). -/
def entryRows (es : List Entry) (rb : Nat) : List Row :=
  (chunks (rb / 128) es).map fun g => ⟨leNat (g.flatMap entryBytes), 0, g.map (·.poison)⟩

/-- Rows of an operand field, from the Ledge or from the entries popped. -/
def operandRows (x : Crag) (p : Packet) (field rows rb : Nat) (es : List Entry) : Except OpErr (List Row) :=
  match opnd field with
  | .ledge r => ledgeRows x p (r * 4096) rows rb
  | .queue _ => .ok (entryRows es rb)
  | _ => .ok []

/-- Code of element i of a row. -/
def Row.elem (r : Row) (fmt i : Nat) : Nat := bitsN r.val (fmtBits fmt * i) (fmtBits fmt)

/-- Poison of the blocks that hold element i. -/
def Row.elemPois (r : Row) (fmt i : Nat) : Bool :=
  let b := fmtBits fmt
  let k := 8 * r.off + b * i
  r.pois.getD (k / 1024) false || r.pois.getD ((k + b - 1) / 1024) false

/-- Poison of the blocks that hold the first n elements, padding apart. -/
def Row.firstPois (r : Row) (fmt n : Nat) : Bool :=
  n ≠ 0 && (r.pois.take ((8 * r.off + fmtBits fmt * n + 1023) / 1024)).any id

def Row.anyPois (r : Row) : Bool := r.pois.any id

def rowAt (rs : List Row) (i : Nat) : Row := rs.getD i rowNone

/-- A row image of codes. -/
def packRow (fmt : Nat) (cs : List Nat) : List Byte :=
  natLe (rowBytes fmt cs.length) (packBits (fmtBits fmt) cs)

/-! ## The configuration word (Table 4.5) -/

def fcwOf (p : Packet) : W32 := BitVec.ofNat 32 (fld p 176 32)
def fSr (f : W32) : Nat := fld f 0 3
def fDf (f : W32) : Nat := fld f 3 2
def fA (f : W32) : Nat := fld f 5 4
def fB (f : W32) : Nat := fld f 9 4
def fO (f : W32) : Nat := fld f 13 4
def fMxa (f : W32) : Bool := bit f 17
def fMxb (f : W32) : Bool := bit f 18
def fAt (f : W32) : Bool := bit f 19
def fBt (f : W32) : Bool := bit f 20
def fRnd (f : W32) : Nat := fld f 21 2
def fabM (p : Packet) : Nat := fld p 128 16
def fabN (p : Packet) : Nat := fld p 144 16
def fabK (p : Packet) : Nat := fld p 160 16

/-- Accumulation in INT32: both operands integers without MX scaling (R128). -/
def intAcc (f : W32) : Bool := fmtIsInt (fA f) && fmtIsInt (fB f) && !fMxa f && !fMxb f

/-- Width of an op: the larger element width, FP6 counted as 8 bits (R128). -/
def opWidth (a b : Nat) : Nat :=
  let w := fun c => if c = 5 then 8 else fmtBits c
  max (w a) (w b)

/-- ceil(t / r) for the rate factor r of a width (R128), and with r doubled. -/
def divRate (w t : Nat) : Nat := if w = 4 then (t + 1) / 2 else if w = 8 then t else if w = 16 then 4 * t else 16 * t
def divRate2 (w t : Nat) : Nat := if w = 4 then (t + 3) / 4 else if w = 8 then (t + 1) / 2 else if w = 16 then 2 * t else 8 * t

/-! ## Accumulator values -/

/-- A value in the accumulation format: FP32 or INT32; before a product it may be any exact value. -/
inductive Acc where
  | f (v : FVal)
  | i (v : Int)
  deriving DecidableEq, Repr

def i32max : Int := 2 ^ 31 - 1
def i32min : Int := -2 ^ 31

/-- Whether integer operands at the ends of their format stand for infinities (R130). -/
def hasIntInf (sr : Nat) : Bool := sr = 1 || sr = 2 || sr = 5

/-- An integer element of a format in the accumulation format, with the infinities of R130. -/
def intElem (sr fmt : Nat) (iacc : Bool) (v : Int) : Acc :=
  let top : Int := 2 ^ (fmtBits fmt - 1) - 1
  if hasIntInf sr && decide (v = top) then (if iacc then .i i32max else .f (.inf false))
  else if hasIntInf sr && decide (v = -top - 1) then (if iacc then .i i32min else .f (.inf true))
  else if iacc then .i v else .f (ofIntF v)

/-- An operand element: its exact value with the block scale (R127), and whether it or its scale is NaN. -/
def operandElem (sr fmt : Nat) (iacc : Bool) (code : Nat) (scale : Option Nat) : Acc × Bool :=
  match scale with
  | some e =>
    let s := scaleVal e
    let v := elemVal fmt code
    let v := if fmt = 7 then (exactMul v (.fin false 1 (-6))).1 else v
    (.f (exactMul v s).1, fIsNan v || fIsNan s)
  | none =>
    if fmtIsInt fmt then (intElem sr fmt iacc (toSigned (fmtBits fmt) code), false)
    else let v := elemVal fmt code; (.f v, fIsNan v)

/-- C in the accumulation format (R134): exact but for INT32 to FP32 and float to INT32. R134 states the conversion of a NaN for the output
only: a NaN in C becomes 0 in INT32, with INVALID and NAN_IN (log entry 111). -/
def cElem (sr fmt : Nat) (iacc : Bool) (code : Nat) : Acc × Fl :=
  if fmtIsInt fmt then
    match intElem sr fmt iacc (toSigned (fmtBits fmt) code) with
    | .f v => let (r, fl) := to32 v; (.f r, fl)
    | .i v => (.i v, flNone)
  else
    let v := elemVal fmt code
    let nan := if fIsNan v then flNan else flNone
    if iacc then
      let (k, fl) := toIntSat 32 v
      (.i (toSigned 32 k), flOr nan fl)
    else (.f v, nan)

def accTrue : Acc → Bool
  | .f (.fin _ m _) => m ≠ 0
  | .f _ => true
  | .i v => v ≠ 0

def accOf (iacc b : Bool) : Acc := if iacc then .i (if b then 1 else 0) else .f (if b then fone else fzero)

/-- The identity of each sum (Table 4.4). -/
def accZero (sr : Nat) (iacc : Bool) : Acc :=
  match sr with
  | 1 => if iacc then .i i32max else .f (.inf false)
  | 2 => if iacc then .i i32min else .f (.inf true)
  | 5 => if iacc then .i i32max else .f (.inf false)
  | _ => if iacc then .i 0 else .f fzero

def satI32 (v : Int) : Acc × Fl :=
  if i32max < v then (.i i32max, flOvf) else if v < i32min then (.i i32min, flOvf) else (.i v, flNone)

/-- Saturating integer sum with absorbing infinities; opposite infinities give the identity (R130). -/
def satSum (sr : Nat) (a b : Int) : Acc × Fl :=
  let ia := a = i32max ∨ a = i32min
  let ib := b = i32max ∨ b = i32min
  if ia ∧ ib ∧ a ≠ b then (accZero sr true, flNone)
  else if ia then (.i a, flNone)
  else if ib then (.i b, flNone)
  else satI32 (a + b)

/-- The product of a semiring, rounded in the accumulation format (R129, R130, R133). -/
def otimes (sr : Nat) (iacc : Bool) : Acc → Acc → Acc × Fl
  | .i a, .i b =>
    match sr with
    | 0 => (.i (a * b), flNone)
    | 1 => satSum 1 a b
    | 2 => satSum 2 a b
    | 3 => satI32 (a * b)
    | 4 => (accOf iacc (accTrue (.i a) && accTrue (.i b)), flNone)
    | _ => (.i (max a b), flNone)
  | .f a, .f b =>
    match sr with
    | 0 => let (r, fl) := fmul a b; (.f r, fl)
    | 1 => let (r, fl) := fadd a b; (.f r, fl)
    | 2 => let (r, fl) := fadd a b; (.f r, fl)
    | 3 => let (r, fl) := fmul a b; (.f r, fl)
    | 4 => (accOf iacc (accTrue (.f a) && accTrue (.f b)), flNone)
    | _ => let (r, fl) := to32 (fmax a b); (.f r, fl)
  | a, _ => (a, flNone)

/-- INT32 sum that wraps (R133, R140). -/
def wrapAdd (a b : Int) : Acc × Fl :=
  let s := a + b
  if i32min ≤ s ∧ s ≤ i32max then (.i s, flNone) else (.i (toSigned 32 (ofInt 32 s)), { flNone with wrp := true })

/-- Addition of the (+,x) accumulation. -/
def accAdd : Acc → Acc → Acc × Fl
  | .i a, .i b => wrapAdd a b
  | .f a, .f b => let (r, fl) := fadd a b; (.f r, fl)
  | a, _ => (a, flNone)

/-- One level of the summation tree over adjacent pairs; an absent term takes no part (R123, R133; log entry 24). -/
def treeLevel : List (Option Acc) → List (Option Acc) × Fl
  | a :: b :: rest =>
    let (l, fl) := treeLevel rest
    match a, b with
    | some x, some y => let (r, f) := accAdd x y; (some r :: l, flOr f fl)
    | none, y => (y :: l, fl)
    | x, none => (x :: l, fl)
  | l => (l, flNone)

/-- The five levels of a chunk of 32 terms. -/
def treeSum : Nat → List (Option Acc) → Option Acc × Fl
  | 0, l => (l.headD none, flNone)
  | n + 1, l =>
    let (l, f1) := treeLevel l
    let (r, f2) := treeSum n l
    (r, flOr f1 f2)

/-- The accumulation of (+,x): chunks of 32 along K (R133). -/
def sumChunks (acc : Acc) : List (List Acc) → Acc × Fl
  | [] => (acc, flNone)
  | c :: cs =>
    let (t, f1) := treeSum 5 (padTo 32 none (c.map some))
    match t with
    | none => sumChunks acc cs
    | some t =>
      let (a, f2) := accAdd acc t
      let (r, f3) := sumChunks a cs
      (r, flOr f1 (flOr f2 f3))

/-- Whether a term decides over the present value: strictly better, NaN first (R130, R136). -/
def better (sr : Nat) (t cur : Acc) : Bool :=
  match sr, t, cur with
  | 4, t, cur => accTrue t && !accTrue cur
  | _, .i a, .i b => if sr = 1 ∨ sr = 5 then a < b else b < a
  | _, .f a, .f b =>
    if fIsNan b then false else if fIsNan a then true
    else if sr = 1 ∨ sr = 5 then fltTotal a b else fltTotal b a
  | _, _, _ => false

/-- The fold of semirings 1 to 5: the value and the index of the deciding term (R136). -/
def semiFold (sr : Nat) : Nat → Acc → Option Nat → List Acc → Acc × Option Nat
  | _, cur, best, [] => (cur, best)
  | k, cur, best, t :: ts =>
    if better sr t cur then semiFold sr (k + 1) t (some k) ts else semiFold sr (k + 1) cur best ts

/-- One output before conversion: the terms' products, their accumulation, the deciding index, the flags. A term with a
skipped operand contributes nothing and keeps its place as an exact zero (R169). -/
def dotOut (sr : Nat) (iacc : Bool) (c : Acc) (terms : List (Option Acc × Option Acc)) : Acc × Option Nat × Fl :=
  let ps := terms.map fun t =>
    match t with
    | (some a, some b) => otimes sr iacc a b
    | _ => (accOf iacc false, flNone)
  let fl := ps.foldl (fun f p => flOr f p.2) flNone
  if sr = 0 then
    let (r, f) := sumChunks c (chunks 32 (ps.map (·.1)))
    (r, none, flOr fl f)
  else
    let (r, best) := semiFold sr 0 c none (ps.map (·.1))
    (if sr = 4 then accOf iacc (accTrue r) else r, best, fl)

/-- The accumulator converted to a format (R134). -/
def accConv (fmt : Nat) (r : Rnd) : Acc → Nat × Fl
  | .f v => convF fmt r v
  | .i v => convI fmt r v

/-- An accumulator of the fabric converted: one in INT32 that stands for an infinity (R130) becomes one in a floating format (R134). -/
def fabConv (sr fmt : Nat) (r : Rnd) (v : Acc) : Nat × Fl :=
  if !hasIntInf sr || fmtIsInt fmt then accConv fmt r v
  else if v = .i i32max then convF fmt r (.inf false)
  else if v = .i i32min then convF fmt r (.inf true)
  else accConv fmt r v

/-! ## Legality (R120, R122, R132, R138) -/

def mxFmt (c : Nat) : Bool := 3 ≤ c && c ≤ 7
def semiFmt (c : Nat) : Bool := c ≤ 4 || c = 7 || c = 9

/-- SCALE_A and SCALE_B are 0 where no scales are used (Table 4.2). -/
def scalesLegal (p : Packet) : Bool :=
  (fMxa (fcwOf p) || fld p 208 8 = 0) && (fMxb (fcwOf p) || fld p 216 8 = 0)

/-- The rules on the configuration word shared by MMA, SRING and SMMA. -/
def fcwLegal (p : Packet) : Bool :=
  let f := fcwOf p
  let k := fabK p
  fld f 23 9 = 0 && fSr f ≤ 5 && fDf f ≤ 2 && fRnd f ≤ 1 && fA f ≤ 9 && fB f ≤ 9 && fO f ≤ 9 &&
    (if fSr f = 0 then fA f ≠ 9 && fB f ≠ 9 else semiFmt (fA f) && semiFmt (fB f)) &&
    (!fMxa f || (mxFmt (fA f) && fSr f = 0 && k % 32 = 0)) && (!fMxb f || (mxFmt (fB f) && fSr f = 0 && k % 32 = 0)) &&
    (fRnd f = 0 || (!fmtIsInt (fO f) && fO f ≠ 0)) && (fDf f = 1 || fabM p ≤ 256)

/-- An extent in the Ledge: a name, its first byte and its length. -/
structure Ext where
  name : Nat
  base : Nat
  len  : Nat

def extHit (a b : Ext) : Bool :=
  let d := (b.base + 2 ^ 20 - a.base) % 2 ^ 20
  a.len ≠ 0 && b.len ≠ 0 && (2 ^ 20 ≤ a.len || 2 ^ 20 ≤ b.len || d < a.len || 2 ^ 20 - d < b.len)

/-- Names of extents: C is 2 and D is 5; they may coincide (R122). -/
def extClash : List Ext → Bool
  | [] => false
  | e :: es =>
    es.any (fun g => extHit e g && !(e.name = 2 && g.name = 5 && e.base = g.base)) || extClash es

def ledgeExt (name field len : Nat) : List Ext :=
  match opnd field with
  | .ledge r => [⟨name, r * 4096, len⟩]
  | _ => []

def aRows (p : Packet) : Nat := if fAt (fcwOf p) then fabK p else fabM p
def aCols (p : Packet) : Nat := if fAt (fcwOf p) then fabM p else fabK p
def bRows (p : Packet) : Nat := if fBt (fcwOf p) then fabN p else fabK p
def bCols (p : Packet) : Nat := if fBt (fcwOf p) then fabK p else fabN p

def scaleExtA (p : Packet) : List Ext :=
  let f := fcwOf p
  if !fMxa f then []
  else if fAt f then [⟨10, fld p 208 8 * 4096, fabK p / 32 * scaleRow (fabM p)⟩]
  else [⟨10, fld p 208 8 * 4096, fabM p * scaleRow (fabK p / 32)⟩]

def scaleExtB (p : Packet) : List Ext :=
  let f := fcwOf p
  if !fMxb f then []
  else if fBt f then [⟨11, fld p 216 8 * 4096, fabN p * scaleRow (fabK p / 32)⟩]
  else [⟨11, fld p 216 8 * 4096, fabK p / 32 * scaleRow (fabN p)⟩]

def dLen (p : Packet) : Nat := fabM p * rowBytes (fO (fcwOf p)) (fabN p)

/-- The extents of C, D and the index output. -/
def cdExt (p : Packet) : List Ext :=
  ledgeExt 2 (srcC p) (dLen p) ++ scaleExtA p ++ scaleExtB p ++ ledgeExt 5 (dstOf p) (dLen p) ++
    (if opcOf p = 0x31 then [⟨12, fld p 240 8 * 4096, fabM p * rowBytes 9 (fabN p)⟩] else [])

/-- The operand kinds of R120. -/
def fabOperands (p : Packet) : Bool :=
  let src := fun f => (opnd f).isPop true || (opnd f).isLedge
  src (srcA p) && src (srcB p) && ((opnd (srcC p)).isNone || (opnd (srcC p)).isLedge) &&
    ((opnd (dstOf p)).isPush true || (opnd (dstOf p)).isLedge)

/-- Operands from queues where the dataflow reads them once (R138). -/
def queueOk (p : Packet) (aFree : Bool) : Bool :=
  (!(opnd (srcA p)).isPop true || aFree || fabN p ≤ 32) &&
    (!(opnd (srcB p)).isPop true || fDf (fcwOf p) ≠ 1 || fabM p ≤ 32)

/-- MMA, SRING and SRING.ARG. -/
def fabLegal (p : Packet) : Bool :=
  let f := fcwOf p
  let o := opcOf p
  (o = 0x20 || o = 0x30 || o = 0x31) && fld p 248 8 = 0 && fcwLegal p && scalesLegal p &&
    (if o = 0x20 then fSr f = 0 else fSr f ≠ 0) &&
    (o = 0x31 || fld p 240 8 = 0) && fabOperands p && queueOk p false &&
    !extClash (ledgeExt 0 (srcA p) (aRows p * rowBytes (fA f) (aCols p)) ++
      ledgeExt 1 (srcB p) (bRows p * rowBytes (fB f) (bCols p)) ++ cdExt p)

/-! ## Reading the operands -/

/-- Queue entries of A and of B (R121). -/
def fabNeedA (p : Packet) : Nat := aRows p * (rowBytes (fA (fcwOf p)) (aCols p) / 128)
def fabNeedB (p : Packet) : Nat := bRows p * (rowBytes (fB (fcwOf p)) (bCols p) / 128)

/-- Scale rows of A and of B, empty without MX scaling. -/
def scaleRowsA (x : Crag) (p : Packet) : Except OpErr (List Row) :=
  let f := fcwOf p
  if !fMxa f then .ok []
  else if fAt f then ledgeRows x p (fld p 208 8 * 4096) (fabK p / 32) (scaleRow (fabM p))
  else ledgeRows x p (fld p 208 8 * 4096) (fabM p) (scaleRow (fabK p / 32))

def scaleRowsB (x : Crag) (p : Packet) : Except OpErr (List Row) :=
  let f := fcwOf p
  if !fMxb f then .ok []
  else if fBt f then ledgeRows x p (fld p 216 8 * 4096) (fabN p) (scaleRow (fabK p / 32))
  else ledgeRows x p (fld p 216 8 * 4096) (fabK p / 32) (scaleRow (fabN p))

/-- Scale of element (i, k) along K: by row i, or by row k / 32 when stored transposed. -/
def scaleAt (mx t : Bool) (rs : List Row) (i k : Nat) : Option Nat :=
  if !mx then none
  else if t then some (bitsN (rowAt rs (k / 32)).val (8 * i) 8)
  else some (bitsN (rowAt rs i).val (8 * (k / 32)) 8)

/-- A dense operand value with its NaN mark. -/
def aVal (f : W32) (rows scales : List Row) (m k : Nat) : Acc × Bool :=
  let c := if fAt f then (rowAt rows k).elem (fA f) m else (rowAt rows m).elem (fA f) k
  operandElem (fSr f) (fA f) (intAcc f) c (scaleAt (fMxa f) (fAt f) scales m k)

def bCode (f : W32) (rows : List Row) (k n : Nat) : Nat :=
  if fBt f then (rowAt rows n).elem (fB f) k else (rowAt rows k).elem (fB f) n

/-- Scale of B at (k, n): stored K/32 rows of N, or N rows of K/32 with BT. -/
def bScale (f : W32) (scales : List Row) (k n : Nat) : Option Nat := scaleAt (fMxb f) (!fBt f) scales n k

def bVal (f : W32) (rows scales : List Row) (k n : Nat) : Acc × Bool :=
  operandElem (fSr f) (fB f) (intAcc f) (bCode f rows k n) (bScale f scales k n)

/-- Poison of a block that holds a scale of A's logical row m (R127, R141). -/
def scalePois (p : Packet) (scales : List Row) (m : Nat) : Bool :=
  let f := fcwOf p
  fMxa f && (if fAt f then scales.any (fun r => r.elemPois 7 m) else (rowAt scales m).firstPois 7 (fabK p / 32))

/-- Poison of a block that holds an element or a scale of A's logical row m (R141). -/
def aPois (p : Packet) (rows scales : List Row) (m : Nat) : Bool :=
  let f := fcwOf p
  (if fAt f then rows.any (fun r => r.elemPois (fA f) m) else (rowAt rows m).firstPois (fA f) (fabK p)) || scalePois p scales m

/-! ## The computation (R123) -/

/-- What the computation takes: A and B as optional exact values (none: skipped), with NaN marks gathered beforehand. -/
structure FabIn where
  a    : Nat → Nat → Option Acc
  b    : Nat → Nat → Option Acc
  nan  : Bool
  pois : Nat → Bool          -- poison of every block of D row m

/-- The rounding of output element i (R135). -/
def rndOf (c : Nat) (o : Op) (i : Nat) : Rnd :=
  if fRnd (fcwOf o.pkt) = 1 then
    .sto (rndWord o.seed c (fld o.pkt 224 16) o.epoch i)
  else .rne

/-- One row of outputs: codes, deciding indices, flags. -/
def fabRow (c : Nat) (o : Op) (inp : FabIn) (crow : Option Row) (m : Nat) : List Nat × List Nat × Fl :=
  let p := o.pkt
  let f := fcwOf p
  let iacc := intAcc f
  (List.range (fabN p)).foldl (fun acc n =>
    let (ds, is, fl) := acc
    let (c0, f0) := match crow with
      | some r => cElem (fSr f) (fO f) iacc (r.elem (fO f) n)
      | none => (accZero (fSr f) iacc, flNone)
    let (v, best, f1) := dotOut (fSr f) iacc c0 ((List.range (fabK p)).map fun k => (inp.a m k, inp.b k n))
    let (d, f2) := fabConv (fSr f) (fO f) (rndOf c o (m * fabN p + n)) v
    (ds ++ [d], is ++ [best.getD 0xFFFFFFFF], flOr fl (flOr f0 (flOr f1 f2)))) ([], [], flNone)

/-- Blocks written to the Ledge one after another from an address, each with its poison. -/
def putBlocks (p : Packet) : Crag → Nat → List (List Byte × Bool) → Except OpErr Crag
  | x, _, [] => .ok x
  | x, a, (bs, po) :: rest => do
    let x ← opWrite x p a bs po
    putBlocks p x (a + bs.length) rest

/-- Blocks as queue entries; the last carries LAST (R121). -/
def blockEntries (bs : List (List Byte × Bool)) : List Entry :=
  bs.mapIdx fun i b => { bytes := b.1, last := i + 1 = bs.length, poison := b.2 }

/-- Result blocks sent to the destination operand: the Ledge, or the entries for its queue. -/
def putDst (x : Crag) (p : Packet) (bs : List (List Byte × Bool)) : Except OpErr (Crag × List (Nat × Entry)) :=
  match opnd (dstOf p) with
  | .ledge r => do
    let x ← putBlocks p x (r * 4096) bs
    pure (x, [])
  | .queue q => .ok (x, (blockEntries bs).map fun e => (q, e))
  | _ => .ok (x, [])

/-- The fabric computation from operands on to results, shared by MMA, SRING and SMMA: how long the op runs, and in how many
of those cycles the fabric performs a step (CRAG_FBUSY, Table 4.7). -/
def fabCompute (c : Nat) (o : Op) (x : Crag) (inp : FabIn) (cycles busy : Nat) : Except OpErr EngOut := do
  let p := o.pkt
  let f := fcwOf p
  let rb := rowBytes (fO f) (fabN p)
  let crows ← match opnd (srcC p) with
    | .ledge r => (ledgeRows x p (r * 4096) (fabM p) rb).map some
    | _ => .ok none
  let rows := (List.range (fabM p)).map fun m => fabRow c o inp (crows.map fun cs => rowAt cs m) m
  let fl := rows.foldl (fun g r => flOr g r.2.2) (if inp.nan then flNan else flNone)
  let cp := fun m b => match crows with
    | some cs => (rowAt cs m).pois.getD b false
    | none => false
  let blocks := (rows.mapIdx fun m r =>
    (chunks 128 (packRow (fO f) r.1)).mapIdx fun b bs => (bs, inp.pois m || cp m b)).flatten
  let x ← if opcOf p = 0x31 then
      putBlocks p x (fld p 240 8 * 4096) (rows.mapIdx fun m r =>
        (chunks 128 (packRow 9 r.2.1)).mapIdx fun b bs =>
          let held := (List.range 32).any fun j =>
            let n := 32 * b + j
            decide (n < fabN p) && (match crows with
              | some cs => (rowAt cs m).elemPois (fO f) n
              | none => false)
          (bs, inp.pois m || held)).flatten
    else .ok x
  let (x, out) ← putDst x p blocks
  pure { crag := { x with ex := { x.ex with fbusy := bump x.ex.fbusy busy } }, out := out, count := fabM p * fabN p, cycles := cycles,
         ffl := flFabric fl, vfl := flFabricToV fl }

/-- Table 4.6. -/
def fabCycles (p : Packet) (rate : Nat → Nat) : Nat :=
  let mt := (fabM p + 31) / 32
  let nt := (fabN p + 31) / 32
  let kt := (max (fabK p) 1 + 31) / 32
  match fDf (fcwOf p) with
  | 0 => rate (kt * nt * max (fabM p) 32)
  | 1 => rate (mt * nt * max (fabK p) 32)
  | _ => rate (kt * nt * fabM p)

/-- The cycles that entries from queues take: one for each entry popped from any one queue (R139). -/
def popCycles (o : Op) : Nat :=
  if srcA o.pkt = srcB o.pkt then o.inA.length + o.inB.length else max o.inA.length o.inB.length

/-- The 16 cycles of reconfiguration (R139). -/
def reconfCycles (x : Crag) (f : W32) : Nat := if x.ex.reconf || setFld f 21 2 0 ≠ setFld x.ex.fcw 21 2 0 then 16 else 0

/-- An op with M = 0 or N = 0 (R124). -/
def fabEmpty (p : Packet) : Bool := fabM p = 0 || fabN p = 0

/-- CRAG_FCW and the reconfiguration mark when a fabric op starts (R124, Table 4.7). -/
def fabStart (x : Crag) (p : Packet) : Crag :=
  if fabEmpty p then x else { x with ex := { x.ex with fcw := fcwOf p, reconf := false } }

/-- Marks of NaN among an operand's values. -/
def anyNan (rows cols : Nat) (v : Nat → Nat → Acc × Bool) : Bool :=
  (List.range rows).any fun i => (List.range cols).any fun j => (v i j).2

/-- MMA, SRING and SRING.ARG over their operands (R123). -/
def fabRun (w : Work) (c : Nat) (o : Op) : Except OpErr EngOut := do
  let p := o.pkt
  let f := fcwOf p
  let x := getCrag w c
  if fabEmpty p then pure { crag := x, out := [], count := 0, cycles := 1 }
  else
    let ar ← operandRows x p (srcA p) (aRows p) (rowBytes (fA f) (aCols p)) o.inA
    let br ← operandRows x p (srcB p) (bRows p) (rowBytes (fB f) (bCols p)) o.inB
    let sa ← scaleRowsA x p
    let sb ← scaleRowsB x p
    let bp := br.any Row.anyPois || sb.any Row.anyPois
    let inp : FabIn := {
      a := fun m k => some (aVal f ar sa m k).1
      b := fun k n => some (bVal f br sb k n).1
      nan := anyNan (fabM p) (fabK p) (aVal f ar sa) || anyNan (fabK p) (fabN p) (bVal f br sb)
      pois := fun m => bp || aPois p ar sa m }
    let t := fabCycles p (divRate (opWidth (fA f) (fB f)))
    fabCompute c o x inp (max t (popCycles o)) t

end Sys2Proof.Machine
end

