-- ==== Sys2Proof/Machine/Sha.lean ====
section
/-! DEFINITION. SHA-256 and HMAC-SHA-256, which the digests and tags of the block use (R441, R485, R419, R403). -/

namespace Sys2Proof.Machine

/-- The greatest r below 2 ^ b above the given one whose n-th power does not exceed x, bit by bit. -/
def rootFrom (n x : Nat) : Nat → Nat → Nat
  | 0, r => r
  | b + 1, r => rootFrom n x b (if (r + 2 ^ b) ^ n ≤ x then r + 2 ^ b else r)

/-- The first 32 bits of the fraction of the n-th root of p. -/
def rootBits (n p : Nat) : Nat := rootFrom n (p * 2 ^ (32 * n)) 37 0 % 2 ^ 32

/-- The primes below 312, which are the first 64. -/
def primes : List Nat :=
  (List.range 312).filter fun n => decide (2 ≤ n) && (List.range 18).all fun d => decide (d < 2) || d = n || n % d ≠ 0

/-- Round constants, from the cube roots of the primes; and the first chaining value, from the square roots of the first eight. -/
def roundConst : List Nat := primes.map (rootBits 3)
def firstChain : List Nat := (primes.take 8).map (rootBits 2)

def rotr (x n : Nat) : Nat := x / 2 ^ n + x % 2 ^ n * 2 ^ (32 - n)

def beNat (bs : List Byte) : Nat := bs.foldl (fun a b => 256 * a + b.toNat) 0
def natBe (n v : Nat) : List Byte := (natLe n v).reverse

/-- Message schedule: the newest word first. -/
def shaSchedule : Nat → List Nat → List Nat
  | 0, ws => ws
  | n + 1, ws =>
    let w15 := ws.getD 14 0
    let w2 := ws.getD 1 0
    let s0 := rotr w15 7 ^^^ rotr w15 18 ^^^ (w15 / 8)
    let s1 := rotr w2 17 ^^^ rotr w2 19 ^^^ (w2 / 1024)
    shaSchedule n (((ws.getD 15 0 + s0 + ws.getD 6 0 + s1) % 2 ^ 32) :: ws)

def shaRound (h : List Nat) (kw : Nat × Nat) : List Nat :=
  match h with
  | [a, b, c, d, e, f, g, hh] =>
    let s1 := rotr e 6 ^^^ rotr e 11 ^^^ rotr e 25
    let ch := g ^^^ (e &&& (f ^^^ g))
    let t1 := hh + s1 + ch + kw.1 + kw.2
    let s0 := rotr a 2 ^^^ rotr a 13 ^^^ rotr a 22
    let mj := (a &&& b) ||| (c &&& (a ||| b))
    [(t1 + s0 + mj) % 2 ^ 32, a, b, c, (d + t1) % 2 ^ 32, e, f, g]
  | l => l

def shaBlock (h : List Nat) (blk : List Byte) : List Nat :=
  let ws := ((chunks 4 blk).map beNat).reverse
  let sched := (shaSchedule 48 ws).reverse
  let out := (roundConst.zip sched).foldl shaRound h
  (h.zip out).map fun p => (p.1 + p.2) % 2 ^ 32

/-- SHA-256 of a byte string, as 32 bytes. -/
def sha256 (m : List Byte) : List Byte :=
  let padded := m ++ [(0x80 : Byte)] ++ List.replicate ((119 - m.length % 64) % 64) 0 ++ natBe 8 (8 * m.length)
  ((chunks 64 padded).foldl shaBlock firstChain).flatMap (natBe 4)

/-- HMAC-SHA-256 with a key of at most 64 bytes. -/
def hmac256 (key m : List Byte) : List Byte :=
  let k := padTo 64 0 key
  sha256 (k.map (· ^^^ 0x5C) ++ sha256 (k.map (· ^^^ 0x36) ++ m))

end Sys2Proof.Machine
end

