-- ==== Sys2Proof/Machine/Remote.lean ====
section
/-! DEFINITION. What leaves the device and how other devices are reached: host writes (R447, R450, R480), epoch digests of
outputs (R485), frames and routes (R458 to R465), requests to other devices (R468), and serving their requests (R466,
R467). -/

namespace Sys2Proof.Machine

/-! ## Restricted outputs -/

/-- A device that originates no frames but LINK and TIME and discards its host writes: Fenced (R450, R469), or stopped by
a fatal fault (R506). -/
def silenced (w : Work) : Bool := w.dstate = .fenced || (w.dstate = .stopped && w.stopCause = 2)

/-- A Duplex standby (R480). -/
def isStandby (w : Work) : Bool := w.duplex && w.standby

def suppress1 (w : Work) : Work := { w with suppress := bump w.suppress 1 }

/-- An MSI-X message leaves the device. -/
def msixOut (w : Work) (v : Nat) : Work := if w.hostGone then w else emit w (.msix v)

/-- An MSI-X message: a standby's is not sent (R480); a Fenced device's is (R450); none reaches a host that is gone (R538). -/
def msix (w : Work) (v : Nat) : Work :=
  if isStandby w then suppress1 w else msixOut w v

/-! ## Digests (R485) -/

/-- The digest of a party's epoch. -/
def digestOf (w : Work) (lead : Nat) (e : W64) : BitVec 128 :=
  ((w.digests.find? fun d => d.1 = lead && d.2.1 = e).map (·.2.2)).getD 0

/-- One contribution: position, kind, poison bits, data of one block. -/
def contribution (pos kind poison : Nat) (data : List Byte) : BitVec 128 :=
  let s := natLe 8 pos ++ natLe 1 kind ++ natLe 1 poison ++ List.replicate 6 0 ++ (padTo 128 0 data).take 128
  BitVec.ofNat 128 (leNat ((sha256 s).take 16))

/-- Adds a contribution to the digest of an epoch of a Crag's party; only Duplex keeps digests. -/
def addDigest (w : Work) (c : Nat) (e : W64) (pos kind poison : Nat) (data : List Byte) : Work :=
  if !w.duplex then w
  else
    let lead := leaderOfCrag w c
    let v := digestOf w lead e + contribution pos kind poison data
    { w with digests := w.digests.filter (fun d => !(d.1 = lead && d.2.1 = e)) ++ [(lead, e, v)] }

/-! ## Host memory -/

/-- TenPasid of a Crag's tenancy. -/
def pasidOf (w : Work) (c : Nat) : Nat := od w 0x4005 0 (tenOfCrag w c)

/-- Host page of an address (4 KiB pages). -/
def hostPage (a : Nat) : Nat := a / 4096

/-- Whether an op has a non-posted request to the host outstanding: a read, the zero-length read that ends its writes (R447), or a
translation request. -/
def asksHost (x : Crag) (o : Op) : Bool :=
  if isStream (opcOf o.pkt) then
    let h := getChan x (strmCh o.pkt)
    h.op = o.n && dAsp h.desc = 1 && o.started &&
      (h.asked || (o.stage = .acking && o.acks ≠ 0) || (o.stage = .reading && h.state = 1 && o.outQ = [] && decide (h.next < dTotal h.desc)))
  else match o.walk.want with
    | some (.block true _) => true
    | some (.ats _) => true
    | _ => false

/-- Non-posted requests outstanding of ops other than a Crag's op n: tags in use (Table 15.1). -/
def tagsUsed (w : Work) (c n : Nat) : Nat :=
  (w.crags.map fun e => (e.2.ops.filter fun o => !(decide (e.1 = c) && decide (o.n = n)) && asksHost e.2 o).length).sum

/-- A non-posted request of an op to the host, when one of the 768 tags is free (R442). -/
def askHost (w : Work) (c n : Nat) (q : Out) : Work := if tagsUsed w c n < 768 then emit w q else waitFor w .port

/-- Page requests outstanding. -/
def pagesAsked (w : Work) : Nat :=
  (w.crags.map fun e => (e.2.chans.filter fun h => h.2.state = 3).length + (e.2.ops.filter fun o => match o.walk.want with
    | some (.pri _) => true
    | _ => false).length).sum

/-- A PRI page request, when fewer than 512 are outstanding (R442). -/
def askPage (w : Work) (q : Out) : Work := if pagesAsked w < 512 then emit w q else waitFor w .port

/-- Translations held. -/
def pagesHeld (w : Work) : Nat :=
  (w.crags.map fun e => (e.2.chans.map fun h => h.2.pages.length).sum + (e.2.ops.map fun o => o.walk.pages.length).sum).sum

/-- Room for one more translation among the 4,096 entries of the cache: when they are all in use, those of one op, the lowest Crag's
first, are dropped (R442; log entry 155). -/
def roomForPage (w : Work) : Work :=
  if pagesHeld w < 4096 then w
  else
    match w.crags.find? fun e => (e.2.chans.any fun h => h.2.pages ≠ []) || (e.2.ops.any fun o => o.walk.pages ≠ []) with
    | none => w
    | some (c, x) =>
      match x.chans.find? fun h => h.2.pages ≠ [] with
      | some (ch, h) => setCrag w c (setChan x ch { h with pages := [] })
      | none => setCrag w c { x with ops := x.ops.map fun o => { o with walk := { o.walk with pages := [] } } }

/-- Whether a write to the host leaves the device. -/
def hostTakes (w : Work) : Bool := !silenced w && !isStandby w && !w.hostGone

/-- Bytes written to host memory, all in one 128 B block, for an op of a Crag, with No-Snoop where its stream sets NOSNOOP (R86, R447,
R450, R480, R485); discarded while the host is gone (R538). -/
def hostWrite (w : Work) (c : Nat) (e : W64) (pasid iova : Nat) (bs : List Byte) (poison noSnoop : Bool) : Work :=
  let w := addDigest w c e (iova / 128 * 128) 1 (b2n poison) (List.replicate (iova % 128) 0 ++ bs)
  if silenced w then { w with fenceDrop := bump w.fenceDrop 1, fenceSeen := true }
  else if isStandby w then suppress1 w
  else if w.hostGone then w
  else emit w (.hostWrite pasid iova bs poison noSnoop)

/-! ## Frames -/

/-- The twin's device ID, when requests to it travel over the Rope, be it up or down (R465, R476). -/
def twinId (w : Work) : Option Nat :=
  if w.duplex || w.share then (getPort w 8).neigh.map (·.toNat) else none

/-- The caches of the ports with an entry added: each port holds 256, and an entry stands in that of the port it leads to (R463; log entry
29). -/
def cacheRoute (l : List (Nat × Nat)) (dst e : Nat) : List (Nat × Nat) :=
  let mine := fun (r : Nat × Nat) => decide (r.2 % 8 = e % 8)
  (if 256 ≤ (l.filter mine).length then l.eraseP mine else l) ++ [(dst, e)]

/-- A route-table entry: ROUTE and NHOPS, when valid (R463). -/
def routeTo (w : Work) (dst : Nat) : Work × Option (Nat × Nat) :=
  let base := od w 0x1302
  if base = 0 then (w, none)
  else
    let read := fun (e : Nat) => if bitsN e 53 1 = 1 then some (bitsN e 0 48, bitsN e 48 5) else none
    match w.routes.find? fun r => r.1 = dst with
    | some r => (w, read r.2)
    | none =>
      match readPa w (reqPort 0 0) (base + 8 * dst) 8 with
      | (w, _, true) => (w, none)
      | (w, bs, false) =>
        let e := leNat bs
        ({ w with routes := cacheRoute w.routes dst e }, read e)

/-- TravRouteInval drops every cached route entry; it waits while a request sent under one has had no response (R463). -/
def routeInval (w : Work) : Work :=
  let under := fun (r : Remote) => w.routes.any fun e => e.1 = r.dev.toNat
  let w := { w with routes := [], remotes := if w.again then w.remotes else w.remotes.map fun r => { r with gone := r.gone || under r } }
  if w.remotes.any (·.gone) then waitFor w .routes else w

/-- Sends a frame that starts here along a route (R462); false when its port is absent or down. -/
def sendRouted (w : Work) (f : Frame) (route nhops : Nat) : Work × Bool :=
  sendOn w (bitsN route 0 3) { f with route := BitVec.ofNat 48 route, nhops := nhops, hop := 1 }

/-- Payload bytes charged to a tenancy: Traverse or Rope (Table 13.6). -/
def meterFrame (w : Work) (rope : Bool) (t bytes : Nat) : Work :=
  let x := getTen w t
  setTen w t (if rope then { x with rope := bump x.rope bytes } else { x with trav := bump x.trav bytes })

/-! ## Requests to other devices (R463 to R468) -/

/-- Sends a request to another device: none while its response is awaited, else the STATUS it completed with at once. A
standby's writes and posts on Traverse are not sent and complete (R480). A frame with NHOPS 0 is at the end of its path where it starts:
it is discarded and counted (R462; log entry 29: on the port that ROUTE names first). -/
def sendRequest (w : Work) (c n ten belay : Nat) (f : Frame) : Work × Option Nat :=
  let dst := f.dst.toNat
  let tag := w.nextTag
  let f := { f with tag := tag, srcTen := ten }
  let r : Remote := { tag := tag, typ := f.typ, dev := f.dst, crag := c, op := n, ten := ten, belay := belay, sentAt := w.now, gone := false }
  let wait := fun (w : Work) => { w with remotes := w.remotes ++ [r], nextTag := tag + 1 }
  if silenced w then (wait w, none)
  else if dst = devId w then ({ wait w with loopQ := w.loopQ ++ [f] }, none)
  else if twinId w = some dst then
    match sendOn w 8 f with
    | (w, true) => (wait (meterFrame w true ten f.payload.length), none)
    | (w, false) => (w, some 3)
  else if isStandby w && (f.typ = 1 || f.typ = 3) then (suppress1 w, some 0)
  else
    match routeTo w dst with
    | (w, none) => (w, some 3)
    | (w, some (route, 0)) => (wait (countDiscard w (bitsN route 0 3)), none)
    | (w, some (route, nhops)) =>
      match sendRouted w f route nhops with
      | (w, true) => (wait (meterFrame w false ten f.payload.length), none)
      | (w, false) => (w, some 3)

/-- The request that a response answers, and the state without it. -/
def takeRemote (w : Work) (tag : BitVec 12) : Work × Option Remote :=
  match w.remotes.find? fun r => r.tag = tag with
  | none => (w, none)
  | some r => ({ w with remotes := w.remotes.eraseP fun q => q.tag = tag }, some r)

/-- ADDR of REMOTE_ERR (Table 17.3). -/
def remoteAddr (dev : BitVec 16) (status : Nat) : Nat := dev.toNat + status * 2 ^ 16

/-! ## Serving other devices (R466, R467) -/

/-- The import entry that a request takes (R466). -/
def importEntry (w : Work) (f : Frame) : Option Nat :=
  ((List.range 256).map fun i => od w 0x1306 0 i).find? fun e =>
    decide (bitsN e 47 1 = 1) && decide (f.src.toNat &&& bitsN e 16 16 = bitsN e 0 16 &&& bitsN e 16 16) &&
      (decide (bitsN e 36 1 = 1) || decide (bitsN e 32 4 = f.srcTen))

/-- The response type of a request. -/
def respType (typ : Nat) : Nat := if typ = 1 then 5 else if typ = 2 then 4 else 6

/-- Charges a response's payload to SRC_TEN of the request (R467). -/
def meterResp (w : Work) (rope : Bool) (f : Frame) (n : Nat) : Work := if n = 0 then w else meterFrame w rope (f.srcTen % 16) n

/-- Sends a response (R464): over the Rope, inside the device, or along this device's own route. Port 9 stands for a
looped-back request, port 10 for one that the twin forwarded, whose response the twin sends (log entry 37). -/
def respond (w : Work) (port : Nat) (f : Frame) (status : Nat) (payload : List Byte) (poison : BitVec 2) : Work :=
  let r := { blankFrame w (respType f.typ) f.src.toNat with
    tag := f.tag, srcTen := f.srcTen, status := status, payload := payload, len := payload.length / 128, poison := poison }
  if port = 10 then w
  else if port = 9 then { w with loopQ := w.loopQ ++ [r] }
  else if port = 8 then
    match sendOn w 8 r with
    | (w, true) => meterResp w true f payload.length
    | (w, false) => w
  else
    match routeTo w f.src.toNat with
    | (w, none) => countDiscard w port
    | (w, some (_, 0)) => if f.src.toNat = devId w then { w with loopQ := w.loopQ ++ [r] } else countDiscard w port
    | (w, some (route, nhops)) =>
      match sendRouted w r route nhops with
      | (w, true) => meterResp w false f payload.length
      | (w, false) => countDiscard w port

/-- Unit that reports faults of a port. -/
def srcOfPort (p : Nat) : BitVec 16 := if p = 8 then srcRope else srcPort (if 8 < p then 0 else p)

/-- Bit j of a frame's POISON. -/
def framePois (f : Frame) (j : Nat) : Bool := f.poison.getLsbD j

/-- The bytes a WRITE frame stores: address, data and poison of each piece (R458). -/
def writePieces (f : Frame) : List (Nat × List Byte × Bool) :=
  let a := f.addr.toNat
  if f.part then [(a / 128 * 128 + f.first % 128, (f.payload.drop (f.first % 128)).take (f.nbytes % 128 + 1), framePois f 0)]
  else (List.range (min f.len 2)).map fun j => (a + 128 * j, (padTo 128 0 (f.payload.drop (128 * j))).take 128, framePois f j)

/-- STATUS codes of Table 15.7. -/
def stRefused : Nat := 1
def stXlate : Nat := 2
def stUnreachable : Nat := 3
def stFenced : Nat := 4

/-- Signaller of a post from another device (Table 9.10). The frame does not carry its Crag and unit: those bits are a
free value (log entry 4). -/
def sigRemote (w : Work) (dev : BitVec 16) : W32 × Work :=
  let (v, w) := freeVal w
  (BitVec.ofNat 32 (dev.toNat + fld v 0 9 * 2 ^ 18), w)

/-- Serves a WRITE, READ or POST that arrived on a port (R466 to R469). A post is answered when it has been applied. -/
def serveRequest (w : Work) (port : Nat) (f : Frame) : Work :=
  if silenced w then respond w port f stFenced [] 0
  else
    match importEntry w f with
    | none => respond w port f stRefused [] 0
    | some e =>
      let t := bitsN e 40 4
      let allowed := bitsN e (if f.typ = 2 then 44 else if f.typ = 1 then 45 else 46) 1 = 1
      if !allowed || (getTen w t).state ≠ 1 then respond w port f stRefused [] 0
      else
        let rope := port = 8
        let w := meterFrame w rope t f.payload.length
        if f.typ = 1 then
          let (w, bad) := (writePieces f).foldl (fun acc p =>
            match acc with
            | (w, some b) => (w, some b)
            | (w, none) => vWrite w (.port port) (reqPort 2 t) p.1 p.2.1 p.2.2) (w, (none : Option Nat))
          match bad with
          | none => respond w port f 0 [] 0
          | some a => respond (raise w (srcOfPort port) 0x07 t a) port f stXlate [] 0
        else if f.typ = 2 then
          let n := min 2 (f.addr.toNat / 16 % 4)
          let a := f.addr.toNat / 128 * 128
          let (w, bs, po, bad) := (List.range n).foldl (fun acc j =>
            match acc with
            | (w, bs, po, some b) => (w, bs, po, some b)
            | (w, bs, po, none) =>
              let (w, b, q, f) := vRead w (.port port) (reqPort 2 t) (a + 128 * j) 128
              (w, bs ++ b, po + b2n q * 2 ^ j, f)) (w, [], 0, (none : Option Nat))
          match bad with
          | none => respond w port f 0 bs (BitVec.ofNat 2 po)
          | some x => respond (raise w (srcOfPort port) 0x07 t x) port f stXlate [] 0
        else
          let b := bitsN f.addr.toNat 0 16
          if mayBelay w t 33 b then
            let (sig, w) := sigRemote w f.src
            { w with posts := w.posts ++ [{ belay := b, inc := f.inc, sig := sig, crag := none, reply := some (port, f) }] }
          else respond w port f stRefused [] 0

/-! ## The host's posts and BAR2 reads (R280, R444) -/

/-- Signaller of a post by the host (KIND 1) or Basecamp (KIND 2) (Table 9.10). -/
def sigKind (w : Work) (kind : Nat) : W32 := BitVec.ofNat 32 (devId w + kind * 2 ^ 16)

/-- A post by the host or Basecamp (R280): it travels to its slice. An increment of 0 is ignored. -/
def agentPost (w : Work) (kind b inc : Nat) : Work :=
  if inc % 2 ^ 32 = 0 then w else sendPost w (b % 65536) (inc % 2 ^ 32) (sigKind w kind) none

/-- A post or read of the host that waits no longer. -/
def hostAct (w : Work) (h : HostWait) : Work :=
  match h with
  | .post b inc => agentPost w 1 b inc
  | .read pa n =>
    let (w, bs, po) := readPa w (reqPort 2 0) pa n
    emit w (.completion bs po)

/-- A post or read of the host: it waits for the BAR2 writes before it. -/
def hostLater (w : Work) (h : HostWait) : Work :=
  if w.bar2Acks = 0 then hostAct w h else { w with hostWait := w.hostWait ++ [(w.bar2Acks, h)] }

/-- A BAR2 write is acknowledged; what waited for it alone goes on. -/
def hostAck (w : Work) : Work :=
  if w.bar2Acks = 0 then w
  else
    let l := w.hostWait.map fun e => (e.1 - 1, e.2)
    let w := { w with bar2Acks := w.bar2Acks - 1, hostWait := l.filter fun e => e.1 ≠ 0 }
    (l.filter fun e => e.1 = 0).foldl (fun w e => hostAct w e.2) w

end Sys2Proof.Machine
end

