-- ==== Sys2Proof/Machine/Sched.lean ====
section
/-! DEFINITION. The Belay store (R266 to R286) and the Scheduler (R287 to R303): applying a post, releasing waiters, putting,
granting, returning and discarding tasks, and the decision trace. -/

namespace Sys2Proof.Machine

/-! ## Waits -/

/-- A wait is met when its target is at or below zero or the value, read as unsigned, has reached it (R272). -/
def waitMet (v : W64) (target : Int) : Bool := decide (target ≤ 0) || decide (target ≤ (v.toNat : Int))

def addWaiter (w : Work) (b : Nat) (x : Waiter) : Work :=
  let y := getBelay w b
  setBelay w b { y with waiters := y.waiters ++ [x] }

def dropWaiter (w : Work) (b c op : Nat) : Work :=
  let y := getBelay w b
  setBelay w b { y with waiters := y.waiters.filter fun x => !(x.crag = c && x.op = op) }

/-- Walks a wait's targets from the current one while they are met (R273): those left, and how many were met. -/
def metTargets (w : Work) : List (Nat × Int) → List (Nat × Int) × Nat
  | [] => ([], 0)
  | t :: ts =>
    if waitMet (getBelay w t.1).value t.2 then
      let (l, k) := metTargets w ts
      (l, k + 1)
    else (t :: ts, 0)

/-- Leaves Bivouac (R305). -/
def leaveBivouac (x : Crag) : Crag := { x with bivouac := false, idle := 0 }

/-- A wait goes on from its current target: it registers on the next unmet one, or completes (R272, R273). -/
def advanceWait (w : Work) (c : Nat) (o : Op) : Work :=
  let (left, k) := metTargets w o.targets
  let o := { o with targets := left, count := o.count + k, stage := .waiting }
  match left with
  | [] =>
    let w := setCrag w c (leaveBivouac (getCrag w c))
    finishOp w c o
  | t :: _ =>
    let x := getCrag w c
    let o := { o with regNo := 1 + (x.ops.map (·.regNo)).foldl max 0 }
    let w := setCrag w c (setOp x o)
    addWaiter w t.1 { crag := c, unit := o.unit, op := o.n, target := t.2, elapsed := 0 }

/-- The slice tests one registered waiter after a post (R272); a frozen one is not tested (R286). -/
def testWaiter (w : Work) (b : Nat) (x : Waiter) : Work :=
  if (getCrag w x.crag).fe.frozen || !waitMet (getBelay w b).value x.target then w
  else
    let w := dropWaiter w b x.crag x.op
    match findOp (getCrag w x.crag) x.op with
    | some o => advanceWait w x.crag o
    | none => w

/-- A post applied at its slice (R267, Table 9.8): the value saturates at 2^64 - 1 and sets SAT; every waiter is
tested. -/
def applyPost (w : Work) (b inc : Nat) (sig : W32) : Work :=
  let x := getBelay w b
  let v := x.value.toNat + inc
  let x := { x with value := BitVec.ofNat 64 (min v (2 ^ 64 - 1)), sat := x.sat || decide (2 ^ 64 ≤ v), lastSig := sig,
                    lastIt := w.now }
  x.waiters.foldl (fun w y => testWaiter w b y) (setBelay w b x)

/-- A wait released under R285 with status ABANDONED: it completes with the count it has reached; a SCHED = 1 wait
raises BELAY_ABANDONED and stops its party. -/
def abandonWaiter (w : Work) (b : Nat) (x : Waiter) : Work :=
  let w := dropWaiter w b x.crag x.op
  let y := getCrag w x.crag
  let w := setCrag w x.crag (leaveBivouac { y with ac := { y.ac with bAbandoned := true } })
  match findOp (getCrag w x.crag) x.op with
  | none => w
  | some o =>
    if schedOf o.pkt then
      let z := getCrag w x.crag
      cragFault (setCrag w x.crag { z with ops := z.ops.filter fun p => p.n ≠ o.n }) x.crag 0x22 b
    else finishOp w x.crag { o with abandoned := true, targets := [] }

/-- A Belay cleared by the reset of its owner (R285), or for BELAY_UE. -/
def clearBelay (w : Work) (b : Nat) : Work :=
  let x := getBelay w b
  let w := setBelay w b { x with value := 0, abandoned := x.abandoned || decide (x.waiters.length ≠ 0) }
  x.waiters.foldl (fun w y => abandonWaiter w b y) w

/-- The registered waits of a Crag removed without releasing anything (R286). -/
def removeWaits (w : Work) (c : Nat) : Work :=
  { w with belays := Tab.mapV belayD (fun _ x => { x with waiters := x.waiters.filter fun y => y.crag ≠ c }) w.belays }

/-! ## Tasks -/

/-- A task from its 128 B entry (Table 9.4). -/
def taskOf (e : List Byte) (ten seq c unit : Nat) : Task :=
  let v := leNat (e.take 128)
  { payload := BitVec.ofNat 512 (bitsN v 0 512), flow := bitsN v 512 20, atomic := decide (bitsN v 532 1 = 1),
    list := bitsN v 533 3, release := BitVec.ofNat 64 (bitsN v 544 64), putCrag := c, putUnit := unit, ten := ten,
    seq := seq, store := 0, ret := false }

/-- The entry as delivered: GRANT_IT and PUTTER filled in (Table 9.4). -/
def taskBytes (t : Task) (now : W64) : List Byte :=
  natLe 128 (t.payload.toNat + (t.flow + b2n t.atomic * 2 ^ 20 + t.list * 2 ^ 21) * 2 ^ 512 + t.release.toNat * 2 ^ 544 +
    now.toNat * 2 ^ 608 + (t.putCrag + t.putUnit * 2 ^ 8) * 2 ^ 672)

/-- Tasks in service, in the slots of every Crag. -/
def inService (w : Work) : List Task := w.crags.flatMap fun e => (e.2.slots.filterMap fun s => s.2)

def allTasks (w : Work) : List Task := w.sched.ready ++ w.sched.delay ++ inService w

/-- Tasks of a tenancy that count against its share (R287, R389). -/
def tenTasks (w : Work) (t : Nat) : Nat := ((allTasks w).filter fun k => k.ten = t).length

/-- Flows with a task delayed, queued or in service (R293). -/
def activeFlows (w : Work) : List Nat := ((allTasks w).map (·.flow)).eraseDups

/-- A decision trace record (R303): written to the ring at class 3 when TraceEnable is set; one bound for a retired page
is dropped (R366), as is one that would have to wait for a channel, a fill or a write-back. -/
def trace (w : Work) (t : Task) (reason crag slot : Nat) : Work :=
  if od w 0x2322 = 0 then w
  else
    let a := od w 0x2321 + 32 * w.sched.trWr
    let dropped := { w with sched := { w.sched with trDropped := bump w.sched.trDropped 1 } }
    if paStatus w a = .retired || heldAt w a then dropped
    else
      let bs := natLe 32 (w.now.toNat + (t.flow + t.list * 2 ^ 20 + b2n t.atomic * 2 ^ 23 + t.ten * 2 ^ 24 +
        reason * 2 ^ 28 + crag * 2 ^ 32 + slot * 2 ^ 40) * 2 ^ 64 + t.seq * 2 ^ 128)
      let v := writePa w (req 3 0) a bs false
      if v.hold.isSome && w.hold.isNone then dropped
      else { v with sched := { v.sched with trWr := (v.sched.trWr + 1) % 131072 } }

/-- An atomic flow with a task in service (R293). -/
def flowBusy (w : Work) (t : Task) : Bool := t.atomic && (inService w).any fun k => k.flow = t.flow

/-- A ready task is eligible unless its atomic flow is in service, or has a task put earlier that is still queued or delayed (R293). -/
def eligible (w : Work) (t : Task) : Bool :=
  !t.atomic ||
    (!flowBusy w t && (w.sched.ready ++ w.sched.delay).all fun k => decide (k.flow ≠ t.flow) || decide (t.seq ≤ k.seq))

/-- Tasks that have become eligible join the order in which they did so (R294). -/
def refreshElig (w : Work) : Work :=
  let now := (w.sched.ready.filter (eligible w)).map (·.seq)
  let old := w.sched.elig.filter fun n => decide (n ∈ now)
  { w with sched := { w.sched with elig := old ++ now.filter fun n => !decide (n ∈ w.sched.elig) } }

/-! ### The store (R287, R366) -/

/-- Addresses of the entries that queued and delayed tasks take up. -/
def storeUsed (w : Work) : List Nat := (w.sched.ready ++ w.sched.delay).map (·.store)

/-- The first free entry from number i on, on a page that is not retired. -/
def freeStore (w : Work) (used : List Nat) : Nat → Nat → Option Nat
  | 0, _ => none
  | f + 1, i =>
    let a := od w 0x2320 + 128 * i
    if 1048576 ≤ i then none
    else if decide (a ∈ used) || decide (a / 4096 ∈ w.retired) then freeStore w used f (i + 1)
    else some a

/-- A free entry: among one more than the entries in use and on retired pages there is one. -/
def newEntry (w : Work) : Option Nat := freeStore w (storeUsed w) ((storeUsed w).length + 32 * w.retired.length + 1) 0

/-- The task with a new entry, written to device memory at class 0 (Table 11.4); without a free entry it keeps the one it had. -/
def storeTask (w : Work) (t : Task) : Work × Task :=
  match newEntry w with
  | none => (w, t)
  | some a => (writePa w (req 0 0) a (taskBytes t 0) false, { t with store := a })

/-- A task's entry as read from the store; none when it is poisoned. -/
def readTask (w : Work) (t : Task) : Work × Option Task :=
  let (w, bs, po) := readPa w (req 0 0) t.store 128
  (w, if po then none else some { t with payload := BitVec.ofNat 512 (bitsN (leNat bs) 0 512) })

def dropTask (w : Work) (t : Task) : Work :=
  { w with sched := { w.sched with ready := w.sched.ready.filter fun k => k.seq ≠ t.seq
                                   delay := w.sched.delay.filter fun k => k.seq ≠ t.seq } }

/-- A task whose entry reads poisoned is discarded (R366). -/
def poisonedTask (w : Work) (t : Task) : Work :=
  refreshElig (raise (trace (dropTask w t) t 9 0xFF 0) (srcSched t.list) 0x0A t.ten t.store)

/-- Moves the entry of one task off a retired page (R366). -/
def moveEntry (w : Work) (t : Task) : Work :=
  match mapPa w t.store with
  | none => w
  | some (c, x) =>
    if !decide (t.store / 4096 ∈ w.retired) then w
    else
      let s := getSlice w (sliceOf t.store)
      let (w, bs, po) := match hitWay s t.store with
        | some way => (w, secData s (setOf t.store) way (sectorOf t.store), (getSec (getLine s (setOf t.store) way) (sectorOf t.store)).poison)
        | none => let (w, e) := chRead (meterDram (meetHold w t.store) (req 0 0)) c x 0; (w, e.data, e.poison)
      if po then poisonedTask w t
      else
        let (w, k) := storeTask w { t with payload := BitVec.ofNat 512 (bitsN (leNat bs) 0 512) }
        let put := fun (l : List Task) => l.map fun q => if q.seq = t.seq then k else q
        { w with sched := { w.sched with ready := put w.sched.ready, delay := put w.sched.delay } }

/-- Moves every entry that a retired page holds. -/
def moveEntries (w : Work) : Work := (w.sched.ready ++ w.sched.delay).foldl moveEntry w

/-- Whether a waiting TAKE can be granted a task: its tenancy's, its list, not frozen, its tenancy running (R300). -/
def takerFits (w : Work) (t : Task) (k : Taker) : Bool :=
  decide (k.ten = t.ten) && decide (k.mask.toNat / 2 ^ t.list % 2 = 1) && !(getCrag w k.crag).fe.frozen &&
    canRun w k.ten

/-- The TAKE, of some that wait, that a task goes to, and the trace reason (R294). -/
def granteeOf (w : Work) (ks : List Taker) (t : Task) : Option (Taker × Nat) :=
  let last := Tab.get zeroD w.sched.lastTook t.flow
  match ks.find? fun k => takerFits w t k && decide (last = k.crag + 1) with
  | some k => some (k, 3)
  | none =>
    match ks.find? (takerFits w t) with
    | some k => some (k, 4)
    | none => none

/-- The waiting TAKE that a task goes to, and the trace reason (R294). -/
def grantee (w : Work) (t : Task) : Option (Taker × Nat) := granteeOf w w.sched.takers t

/-- Tasks of a list, in the order they became eligible, that go to TAKEs which wait: each TAKE gets one (R294). -/
def promised (w : Work) : List Taker → List Task → List Nat
  | _, [] => []
  | ks, t :: ts =>
    match granteeOf w ks t with
    | none => promised w ks ts
    | some (k, _) => t.seq :: promised w (ks.filter fun y => !(y.crag = k.crag && y.op = k.op)) ts

/-- Eligible tasks in the order they became so (R294). -/
def eligTasks (w : Work) : List Task := (w.sched.elig.filterMap fun n => w.sched.ready.find? fun k => k.seq = n).filter (eligible w)

/-- A task whose entry has been read goes to a TAKE (R295): the entry goes to DST, the task is held in SLOT, the op reports 1. -/
def giveTask (w : Work) (t : Task) (c n slot reason : Nat) : Work :=
  let w := dropTask w t
  let w := refreshElig { w with sched := { w.sched with
    takers := w.sched.takers.filter fun k => !(k.crag = c && k.op = n)
    lastTook := Tab.set zeroD w.sched.lastTook t.flow (c + 1) } }
  let w := trace w t reason c slot
  let x := leaveBivouac (setSlot (getCrag w c) slot (some { t with ret := false }))
  let x := { x with ac := { x.ac with tTaken := bump x.ac.tTaken 1 } }
  let e := taskBytes t w.now
  match findOp x n with
  | none => setCrag w c x
  | some o =>
    let o := { o with count := 1, stage := .draining }
    match opnd (dstOf o.pkt) with
    | .queue q =>
      let (x, left) := pushMany x ((entriesOf e false).map fun y => (q, y))
      if left = [] then finishOp (setCrag w c x) c o
      else setCrag w c (setOp x { o with outQ := left })
    | .ledge r =>
      match opWrite x o.pkt (r * 4096) e false with
      | .ok x => finishOp (setCrag w c x) c o
      | .error er => opFault w c er
    | _ => finishOp (setCrag w c x) c o

/-- Delivers a task to a TAKE, or discards it and says so when its entry reads poisoned; an entry that a retired page holds moves first
(R295, R366). -/
def deliverTask (w : Work) (t : Task) (c n slot reason : Nat) : Work × Bool :=
  let w := moveEntry w t
  match (w.sched.ready ++ w.sched.delay).find? fun k => k.seq = t.seq with
  | none => (w, false)
  | some t =>
    match readTask w t with
    | (w, some k) => (giveTask w k c n slot reason, true)
    | (w, none) => (poisonedTask w t, false)

/-- A flow that becomes active has no Crag that last took one of its tasks (R293). -/
def wakeFlow (w : Work) (f : Nat) : Work :=
  if f ∈ activeFlows w then w
  else { w with sched := { w.sched with lastTook := Tab.set zeroD w.sched.lastTook f 0 } }

/-- A task into its place in put order, behind those that a reset returned (R288, R298). -/
def insReady (t : Task) : List Task → List Task
  | [] => [t]
  | k :: ks => if !k.ret && decide (t.seq < k.seq) then t :: k :: ks else k :: insReady t ks

/-- A task accepted by the Scheduler (R287, R292, R302): its entry is written to the store; it goes to the delay list when RELEASE lies
beyond the current tick, by RELEASE and put order, else to its ready list. -/
def putTask (w : Work) (t : Task) : Work :=
  let (w, t) := storeTask (wakeFlow w t.flow) t
  if w.now.toNat < t.release.toNat then
    let d := w.sched.delay
    let d := d.filter (fun k => decide (k.release.toNat ≤ t.release.toNat)) ++ [t] ++
      d.filter fun k => decide (t.release.toNat < k.release.toNat)
    trace { w with sched := { w.sched with delay := d } } t 1 0xFF 0
  else
    let reason := if flowBusy w t then 6 else 0
    refreshElig (trace { w with sched := { w.sched with ready := insReady t w.sched.ready } } t reason 0xFF 0)

/-- Why an entry waits instead of being accepted (R292, R302). -/
def putWaits (w : Work) (t : Task) : Bool :=
  decide (od w 0x400B 0 t.ten ≤ tenTasks w t.ten) ||
  (decide (65536 ≤ (activeFlows w).length) && !decide (t.flow ∈ activeFlows w)) ||
  (decide (w.now.toNat < t.release.toNat) && decide (16384 ≤ w.sched.delay.length)) || (newEntry w).isNone

/-- The next put sequence number, as a value and the state after it. -/
def takeSeq (w : Work) : Nat × Work :=
  (w.sched.nextSeq, { w with sched := { w.sched with nextSeq := w.sched.nextSeq + 1 } })

/-- A task goes back to the head of its list, ahead of the tasks queued there (R298). -/
def returnTask (c : Nat) (w : Work) (b : Nat × Task) : Work :=
  let (w, t) := storeTask w { b.2 with ret := true }
  trace { w with sched := { w.sched with ready := t :: w.sched.ready } } t 8 c b.1

/-- Returns the tasks a Crag has in service to the heads of their lists, the highest slot first (R298, log entry 127). -/
def returnTasks (w : Work) (c : Nat) : Work :=
  let x := getCrag w c
  let back := x.slots.filterMap fun s => s.2.map fun t => (s.1, t)
  let w := setCrag w c { x with slots := [], ac := { x.ac with tReturned := x.ac.tReturned || decide (back.length ≠ 0) } }
  refreshElig (back.reverse.foldl (returnTask c) w)

/-- Withdraws the waiting TAKEs of a Crag (R300). -/
def dropTakers (w : Work) (c : Nat) : Work :=
  { w with sched := { w.sched with takers := w.sched.takers.filter fun k => k.crag ≠ c } }

/-- A tenancy reset discards the tenancy's tasks (R299). -/
def discardTasks (w : Work) (t : Nat) : Work :=
  let gone := (allTasks w).filter fun k => k.ten = t
  let w := { w with
    sched := { w.sched with
      ready := w.sched.ready.filter fun k => k.ten ≠ t
      delay := w.sched.delay.filter fun k => k.ten ≠ t
      lastTook := w.sched.lastTook.filter fun e => !(gone.any fun k => k.flow = e.1) }
    crags := Tab.mapV cragD (fun _ x => { x with slots := x.slots.filter fun s => (s.2.map (·.ten)) ≠ some t }) w.crags }
  refreshElig (gone.foldl (fun w k => trace w k 9 0xFF 0) w)

end Sys2Proof.Machine
end

