-- ==== Sys2Proof/Machine/Gather.lean ====
section
/-! DEFINITION. GATHER and SAMPLE (R208 to R231): graph descriptors, reads of the graph's arrays, records, draws, and hub
splitting; and what the gather engine's ops share: taking input elements, filling entries, asking for blocks. -/

namespace Sys2Proof.Machine

/-! ## Arguments (Table 7.3) and descriptor (Table 7.1) -/

def gthDesc (p : Packet) : Nat := fld p 128 14 * 64
def gthCount (p : Packet) : Nat := fld p 144 16
def gthRec (p : Packet) : Nat := fld p 160 2
def gthDeg (p : Packet) : Bool := bit p 170
def gthHubMax (p : Packet) : Nat := fld p 179 8
def gthFan (p : Packet) : Nat := fld p 187 12

def gPtr (d : Desc) : Nat := fld d 0 48
def gAsp (d : Desc) : Nat := fld d 48 2
def gU48 (d : Desc) : Bool := bit d 50
def gHub (d : Desc) : Bool := bit d 305
def gSegMax (d : Desc) : Nat := fld d 306 4
def gRing (d : Desc) : Nat := fld d 310 4
def gFblks (d : Desc) : Nat := fld d 296 6

/-- Bytes of an array entry, and of an identifier in a list or record (R208, R210). -/
def gEnt (d : Desc) : Nat := if gU48 d then 6 else 4
def gId (d : Desc) : Nat := if gU48 d then 8 else 4

/-- Bytes of one input element (Table 7.2). -/
def gElem (p : Packet) (d : Desc) : Nat := if opcOf p = 0x62 then 64 else gId d

/-- GATHER and SAMPLE packets (R212 to R214). -/
def gatherLegal (p : Packet) : Bool :=
  let o := opcOf p
  let a := opnd (srcA p)
  let d := opnd (dstOf p)
  !schedOf p && gthRec p ≠ 3 && (a.isLedge || a.isPop false) && (d.isLedge || d.isPush false) &&
    (opnd (srcB p)).isNone && (opnd (srcC p)).isNone && fld p 142 2 = 0 &&
    (if o = 0x60 then fld p 187 69 = 0
     else if o = 0x61 then fld p 162 94 = 0
     else if o = 0x62 then fld p 171 85 = 0
     else if o = 0x68 ∨ o = 0x69 then
       fld p 171 16 = 0 && fld p 216 40 = 0 && 1 ≤ gthFan p && gthFan p ≤ 1024 && (o = 0x68 || !bit p 199)
     else false)

/-- Hub entry number of ring position c for a Crag (R227). -/
def hubEntry (d : Desc) (n c : Nat) : Nat := (fld d 420 16 + n * 2 ^ gRing d + c % 2 ^ gRing d) % 65536

/-- Partial slot of a segment (R228). -/
def hubSlot (d : Desc) (g k : Nat) : Nat := (fld d 320 48 + 128 * fld d 368 16 * (g * 2 ^ gSegMax d + k)) % 2 ^ 48

/-- Whether every page of a range is mapped writable for an agent; the walk may fill its cache. -/
def mappedW (w : Work) (who : Xa) (t a n : Nat) : Work × Bool :=
  (List.range ((a % 2 ^ 21 + n + 2 ^ 21 - 1) / 2 ^ 21)).foldl (fun acc i =>
    if acc.2 then
      let r := xlate acc.1 who t ((a / 2 ^ 21 + i) * 2 ^ 21 % 2 ^ 48) true
      (r.1, r.2.isSome)
    else acc) (w, true)

/-- Whether a hub descriptor lies in what its tenancy is allocated (R215, R389). -/
def hubAllocated (w : Work) (c : Nat) (d : Desc) : Work × Bool :=
  let t := tenOfCrag w c
  let es := (List.range (2 ^ gRing d)).map fun i => hubEntry d c i
  let flows := es.all fun g => (List.range (2 ^ gSegMax d)).all fun k => ownsFlow w t ((fld d 400 20 + g * 2 ^ gSegMax d + k) % 2 ^ 20)
  if flows && es.all (fun g => ownsBelay w t ((fld d 384 16 + g) % 65536)) then
    es.foldl (fun acc g =>
      if acc.2 then mappedW acc.1 (.crag c) t (hubSlot d g 0) (128 * fld d 368 16 * 2 ^ gSegMax d) else acc) (w, true)
  else (w, false)

/-- Rules of R215 on the descriptor alone. -/
def gdescBad (p : Packet) (d : Desc) : Bool :=
  fld d 51 13 ≠ 0 || fld d 314 6 ≠ 0 || fld d 448 64 ≠ 0 || gAsp d = 1 || gAsp d = 3 || 10 < gSegMax d || 8 < gRing d ||
    (gthRec p = 2 && (fld d 272 24 % 128 ≠ 0 || gFblks d = 0 || 32 < gFblks d)) ||
    (opcOf p = 0x60 && gthHubMax p ≠ 0 && !gHub d) || (gHub d && fld d 368 16 = 0)

/-- The descriptor as read when the op starts, its poison, and the checks of R214 and R215. -/
def gatherCheck (w : Work) (c : Nat) (p : Packet) : Work × Except OpErr (Desc × Bool) :=
  match opRead (getCrag w c) p (gthDesc p) 64 with
  | .error e => (w, .error e)
  | .ok (bs, po) =>
    let d : Desc := BitVec.ofNat 512 (leNat bs)
    let bad : OpErr := ⟨0x08, ledgeWrap (gthDesc p) + seqOf p * 2 ^ 20, none⟩
    if gdescBad p d then (w, .error bad)
    else if opcOf p = 0x62 ∧ gthRec p = 1 ∧ fld d 128 48 = 0 then (w, .error ⟨0x03, opcOf p * 256 + seqOf p, none⟩)
    else if gHub d then
      let (w, ok) := hubAllocated w c d
      (w, if ok then .ok (d, po) else .error bad)
    else (w, .ok (d, po))

/-! ## Input elements -/

/-- The first whole element of esz bytes that entries hold, with their poison, and what is left of them: elements lie from byte 0 of
each entry on, and bytes at its end that make no whole element are discarded (R88). -/
def nextElem (esz : Nat) : List Entry → Option ((Nat × Bool) × List Entry)
  | [] => none
  | e :: es =>
    if esz ≤ e.bytes.length then
      some ((leNat (e.bytes.take esz), e.poison), { e with bytes := e.bytes.drop esz } :: es)
    else nextElem esz es

/-- Pops entries of a queue until there are enough, or none is left. -/
def fillWith (q : Nat) (enough : List Entry → Bool) : Nat → Crag → List Entry → Crag × List Entry
  | 0, x, es => (x, es)
  | n + 1, x, es =>
    if enough es then (x, es)
    else
      match (getQueue x q).ents with
      | [] => (x, es)
      | e :: _ => fillWith q enough n (qPop x q) (es ++ [e])

/-- The next element of an op's input list, and the entries left without it; none while its queue holds too little. -/
def takeIn (w : Work) (c : Nat) (o : Op) (esz : Nat) : Work × Op × Except OpErr (Option ((Nat × Bool) × List Entry)) :=
  match opnd (srcA o.pkt) with
  | .queue q =>
    let (x, es) := fillWith q (fun es => (nextElem esz es).isSome) 33 (getCrag w c) o.inA
    (setCrag w c x, { o with inA := es }, .ok (nextElem esz es))
  | _ =>
    (w, o, (opRead (getCrag w c) o.pkt (opndLedge (srcA o.pkt) + esz * o.walk.pos) esz).map fun b => some ((leNat b.1, b.2), o.inA))

/-! ## Filling entries (R88, R216) -/

/-- What was filled goes to the destination: an entry, the last with LAST (R77), or Ledge bytes. -/
def wFlush (x : Crag) (o : Op) (last : Bool) : Except OpErr (Crag × Op) :=
  let k := o.walk
  let o' := { o with walk := { k with pack := [], packPois := false } }
  if k.pack = [] then .ok (x, o)
  else
    match opnd (dstOf o.pkt) with
    | .queue q => .ok (x, { o' with outQ := o.outQ ++ [(q, Entry.mk k.pack last k.packPois)] })
    | _ => do
      let x ← opWrite x o.pkt (opndLedge (dstOf o.pkt) + k.ledgeAt) k.pack k.packPois
      pure (x, { o' with walk := { o'.walk with ledgeAt := k.ledgeAt + k.pack.length } })

/-- Adds bytes to the entry being filled; they begin a new one when they do not fit, or are a whole row image of their own. -/
def wPut (own : Bool) (x : Crag) (o : Op) (bs : List Byte) (po : Bool) : Except OpErr (Crag × Op) := do
  let (x, o) ← if own || 128 < o.walk.pack.length + bs.length then wFlush x o false else .ok (x, o)
  pure (x, { o with walk := { o.walk with pack := o.walk.pack ++ bs, packPois := o.walk.packPois || po } })

/-- Adds pieces one after another. -/
def wPuts (own : Bool) (x : Crag) (o : Op) (ps : List (List Byte × Bool)) : Except OpErr (Crag × Op) :=
  ps.foldlM (fun a q => wPut own a.1 a.2 q.1 q.2) (x, o)

/-! ## Steps, and asking for blocks -/

/-- What a step of an op of the gather engine comes to: it goes on, it waits or has done everything, with the state its register shows, or
an error stops it. -/
inductive WalkRes where
  | go (w : Work) (o : Op)
  | rest (w : Work) (o : Op) (state : Nat)
  | fail (w : Work) (o : Op) (e : OpErr)

/-- A block that another device or the host has answered. -/
def gotBlock (k : Walk) (host : Bool) (a : Nat) : Option Blk := k.got.find? fun b => b.host = host && b.addr = a

/-- Asks another device, or the host under the tenancy's PASID (R112, R256), for a block; a request that fails at once delivers a
poisoned zero block (R448, R468). -/
def askBlock (w : Work) (c : Nat) (o : Op) (host : Bool) (dev a : Nat) : WalkRes :=
  let t := tenOfCrag w c
  let k := o.walk
  let wait := fun (w : Work) (v : Want) => WalkRes.rest w { o with stage := .reading, walk := { k with want := some v } } 2
  let bad := fun (w : Work) => WalkRes.go w { o with walk := { k with got := k.got ++ [Blk.mk host a (zeros 128) true] } }
  if host then
    if w.hostGone then bad (raise { w with cplErr := true } srcPcie 0x59 t a)
    else if hostPage a ∈ k.pages then wait (askHost w c o.n (.hostRead (pasidOf w c) a 128 false)) (.block true a)
    else wait (askHost w c o.n (.atsRequest (pasidOf w c) (hostPage a))) (.ats a)
  else
    match sendRequest w c o.n t 0 { blankFrame w 2 dev with addr := BitVec.ofNat 48 (a + 16) } with
    | (w, none) => wait w (.block false a)
    | (w, some st) => bad (cragNote w c 0x5E (remoteAddr (BitVec.ofNat 16 dev) st))

/-- Bytes of another device or of the host, from the blocks it answered: the first missing block, or data and poison. -/
def extRead (k : Walk) (host : Bool) (a n : Nat) : Except Nat (List Byte × Bool) :=
  (pieces a n).foldlM (fun acc q =>
    match gotBlock k host (q.1 / 128 * 128) with
    | none => .error (q.1 / 128 * 128)
    | some b => .ok (acc.1 ++ ((padTo 128 0 b.bytes).drop (q.1 % 128)).take q.2, acc.2 || b.poison)) ([], false)

/-- CRAG_GTHSTAT.POISON_SEEN or CRAG_EMBSTAT.POISON_SEEN of an op. -/
def notePois (x : Crag) (o : Op) (po : Bool) : Crag :=
  if !po then x
  else if isGather (opcOf o.pkt) then { x with ac := { x.ac with gthPois := true } }
  else { x with ac := { x.ac with embPois := true } }

def noteCrag (w : Work) (c : Nat) (o : Op) (po : Bool) : Work := setCrag w c (notePois (getCrag w c) o po)

/-! ## Running -/

/-- One input element at work: blocks held by array, the first block still to be asked for, the error, blocks requested, draws, records,
the count-list entry, puts, notes so far. -/
structure GSt where
  w      : Work
  err    : Option OpErr
  miss   : Option Nat
  held   : List ((Nat × Nat) × (List Byte × Bool))
  blocks : Nat
  draws  : Nat
  recs   : List (List Byte × Bool)
  nrec   : Nat
  cnt    : Option (Nat × Bool)
  puts   : List PutLeft
  notes  : Nat
  pois   : Bool

/-- Constants of a running op: its poison is that of its descriptor (R110). -/
structure GEnv where
  c    : Nat
  t    : Nat
  p    : Packet
  d    : Desc
  po   : Bool
  k    : Walk
  epoch : W64
  seed : W64

def gEnv (w : Work) (c : Nat) (o : Op) : GEnv :=
  { c := c, t := tenOfCrag w c, p := o.pkt, d := o.desc, po := o.descPois, k := o.walk, epoch := o.epoch, seed := o.seed }

def gStart (w : Work) (o : Op) : GSt :=
  { w := w, err := none, miss := none, held := o.walk.held, blocks := 0, draws := 0, recs := [], nrec := 0, cnt := none, puts := [],
    notes := o.walk.notes, pois := false }

/-- Nothing more is done for the element: it met an error, or a block that has to be asked for. -/
def GSt.stuck (s : GSt) : Bool := s.err.isSome || s.miss.isSome

/-- One block read: class, bypass, address of its first byte; another device's once it has answered (R208). -/
def gBlock (e : GEnv) (s : GSt) (cls : Nat) (byp : Bool) (a : Nat) : GSt × List Byte × Bool :=
  if s.stuck then (s, zeros 128, true)
  else if gAsp e.d = 2 then
    match gotBlock e.k false a with
    | none => ({ s with miss := some a }, zeros 128, true)
    | some b => ({ s with blocks := s.blocks + 1, pois := s.pois || b.poison }, padTo 128 0 b.bytes, b.poison)
  else
    match vRead s.w (.crag e.c) ⟨cls, e.t, byp, false⟩ a 128 with
    | (w, _, _, some f) => ({ s with w := w, err := some ⟨0x07, f, none⟩ }, zeros 128, true)
    | (w, bs, p, none) => ({ s with w := w, blocks := s.blocks + 1, pois := s.pois || p }, bs, p)

/-- Bytes of an array, each block fetched once while it is held (R217, Table 7.5). -/
def gGet (e : GEnv) (s : GSt) (arr a n : Nat) : GSt × List Byte × Bool :=
  (pieces (a % 2 ^ 48) n).foldl (fun acc q =>
    let (s, bs, po) := acc
    let k := (arr, q.1 / 128)
    let (s, b) := match s.held.find? fun x => x.1 = k with
      | some x => (s, x.2)
      | none =>
        let (s, b, p) := gBlock e s 0 false (q.1 / 128 * 128 % 2 ^ 48)
        ({ s with held := (k, (b, p)) :: s.held }, (b, p))
    (s, bs ++ (b.1.drop (q.1 % 128)).take q.2, po || b.2)) (s, [], false)

/-- Adds a record's pieces; all of them depend on the descriptor (R110). -/
def gEmit (e : GEnv) (s : GSt) (ps : List (List Byte × Bool)) : GSt :=
  if s.stuck then s else { s with recs := s.recs ++ ps.map (fun q => (q.1, q.2 || e.po)), nrec := s.nrec + 1 }

/-- Size of a record in modes 0 and 1 (Table 7.4). -/
def gRecSize (p : Packet) (d : Desc) : Nat :=
  if gthRec p = 0 then gId d else if opcOf p = 0x61 then 4 * gId d else 2 * gId d

/-- A feature row (R216): FBLKS blocks; none is read for a poisoned identifier (R223). -/
def gFeature (e : GEnv) (s : GSt) (id : Nat) (po : Bool) : GSt :=
  if po then gEmit e s (List.replicate (gFblks e.d) (zeros 128, true))
  else
    let base := fld e.d 224 48 + id * fld e.d 272 24
    let (s, ps) := (List.range (gFblks e.d)).foldl (fun acc i =>
      let (s, b, p) := gBlock e acc.1 (fld e.d 302 2) (bit e.d 304) ((base + 128 * i) % 2 ^ 48)
      (s, acc.2 ++ [(b, p)])) (s, [])
    gEmit e s ps

/-- The record of one edge: identifier, source (COO) and value, with the poison of what was read. -/
def gRecord (e : GEnv) (s : GSt) (pos : Nat) (po : Bool) : GSt :=
  let sz := gEnt e.d
  let coo := opcOf e.p = 0x61
  if po then
    if gthRec e.p = 2 then gFeature e s 0 true else gEmit e s [(zeros (gRecSize e.p e.d), true)]
  else
    let (s, col, p1) := gGet e s 1 (fld e.d 64 48 + pos * sz) sz
    let id := leNat col
    if gthRec e.p = 2 then gFeature e s id p1
    else if gthRec e.p = 0 then gEmit e s [(if p1 then zeros (gId e.d) else natLe (gId e.d) id, p1)]
    else
      let (s, src, p2) := if coo then gGet e s 0 (gPtr e.d + pos * sz) sz else (s, [], false)
      let (s, val, p3) := gGet e s 2 (fld e.d 128 48 + 4 * pos) 4
      let po := p1 || p2 || p3
      let body := (if coo then natLe (gId e.d) (leNat src) else []) ++ natLe (gId e.d) id ++ val
      gEmit e s [(if po then zeros (gRecSize e.p e.d) else padTo (gRecSize e.p e.d) 0 body, po)]

/-- Records of n consecutive edge positions. -/
def gEdges (e : GEnv) (s : GSt) (start n : Nat) : GSt :=
  (List.range n).foldl (fun s k => gRecord e s (start + k) false) s

/-- The count-list entry of the element (R218). -/
def gCount (e : GEnv) (s : GSt) (n : Nat) (po : Bool) : GSt := { s with cnt := some (n, po || e.po) }

/-- First edge position and degree of a vertex, and the poison of the blocks read (R211). -/
def gDegree (e : GEnv) (s : GSt) (v : Nat) : GSt × Nat × Nat × Bool :=
  let sz := gEnt e.d
  let (s, bs, po) := gGet e s 0 (gPtr e.d + v * sz) (2 * sz)
  let a := leNat (bs.take sz)
  let b := leNat (bs.drop sz)
  (s, a, b - a, po)

/-- Length and number of segments of a hub, by the HubSeg in effect when the op started (R225, R226). -/
def hubCut (x : Crag) (d : Desc) (deg : Nat) : Nat × Nat :=
  let hs := x.ac.hubSeg.toNat
  let l := hs * ceilDiv deg (hs * 2 ^ gSegMax d)
  (l, ceilDiv deg l)

/-- Splits a hub (R226, R227): its puts, and its note after the last one. -/
def gSplit (e : GEnv) (s : GSt) (v start deg : Nat) : GSt :=
  let x := getCrag s.w e.c
  let g := hubEntry e.d e.c x.ac.hubCtr.toNat
  let w := setCrag s.w e.c { x with ac := { x.ac with hubCtr := bump x.ac.hubCtr 1 } }
  let j := (fld e.d 384 16 + g) % 65536
  let (l, n) := hubCut x e.d deg
  let target := ((getBelay w j).value.toNat + n) % 2 ^ 64
  let note := (fld e.p 171 8 * 4096 + 32 * s.notes,
    natLe 32 (v + n % 2 ^ 16 * 2 ^ 48 + g * 2 ^ 64 + j * 2 ^ 80 + hubSlot e.d g 0 * 2 ^ 96 + deg * 2 ^ 144 +
      target * 2 ^ 192), e.po)
  let puts := (List.range n).map fun k =>
    let len := min ((k + 1) * l) deg - k * l
    let rec_ := v + k * 2 ^ 48 + n % 2 ^ 16 * 2 ^ 64 + g * 2 ^ 80 + (start + k * l) % 2 ^ 48 * 2 ^ 96 + len % 2 ^ 32 * 2 ^ 144 +
      j * 2 ^ 176 + fld e.d 436 12 * 2 ^ 192 + e.c * 2 ^ 208 + hubSlot e.d g k * 2 ^ 256 + target * 2 ^ 320
    PutLeft.mk
      { payload := BitVec.ofNat 512 rec_, flow := (fld e.d 400 20 + g * 2 ^ gSegMax e.d + k) % 2 ^ 20, atomic := false,
        list := 0, release := 0, putCrag := e.c, putUnit := 0, ten := e.t, seq := 0, store := 0, ret := false }
      (if k + 1 = n then [note] else [])
  gCount e { s with w := w, puts := s.puts ++ puts, notes := s.notes + 1 } (2 ^ 31 + s.notes) false

/-- One vertex of GATHER.CSR. -/
def gCsr (e : GEnv) (s : GSt) (v : Nat) : GSt :=
  let (s, start, deg, po) := gDegree e s v
  if s.stuck then s
  else if po then gCount e s 0 true
  else
    let hub := gHub e.d && decide ((getCrag s.w e.c).ac.hubTh.toNat < deg)
    if hub && s.notes < gthHubMax e.p then gSplit e s v start deg
    else
      let s := if hub then
          let x := getCrag s.w e.c
          { s with w := setCrag s.w e.c { x with ac := { x.ac with hubInl := bump x.ac.hubInl 1 } } }
        else s
      gCount e (gEdges e s start deg) deg false

/-- Random word q of a vertex, under the seed read when the op started (R221, R389). -/
def gWord (e : GEnv) (v q : Nat) : Nat :=
  let seed := e.seed.toNat
  philox (bitsN seed 0 32, bitsN seed 32 32)
    (bitsN v 0 32, q / 4 % 2 ^ 16 * 2 ^ 16 + bitsN v 32 16, fld e.epoch 0 32,
      fld e.epoch 32 16 * 2 ^ 16 + fld e.p 200 16) q

/-- Draws without replacement (R220): draw number q against t = d - f + q, the set chosen so far. -/
def gChoose (u : Nat → Nat) (base : Nat) : Nat → Nat → List Nat → List Nat
  | 0, _, chosen => chosen
  | n + 1, q, chosen =>
    let t := base + q
    let j := u q * (t + 1) / 2 ^ 32
    gChoose u base n (q + 1) (chosen ++ [if j ∈ chosen then t else j])

/-- Positions drawn by SAMPLE.U, relative to the first edge. -/
def gDrawsU (repl : Bool) (u : Nat → Nat) (f d : Nat) : List Nat :=
  if repl then (List.range f).map fun q => u q * d / 2 ^ 32
  else if d ≤ f then List.range d
  else gChoose u (d - f) f 0 []

/-- One draw of SAMPLE.W (R220, R222): position and poison. -/
def gDrawW (e : GEnv) (s : GSt) (start deg v q : Nat) : GSt × Nat × Bool :=
  let j := gWord e v (2 * q) * deg / 2 ^ 32
  let (s, bs, po) := gGet e s 3 (fld e.d 176 48 + 8 * (start + j)) 8
  let th := leNat (bs.take 4)
  if po then (s, j, true)
  else if th ≠ 0xFFFFFFFF ∧ th ≤ gWord e v (2 * q + 1) then (s, leNat (bs.drop 4), false)
  else (s, j, false)

/-- One vertex of SAMPLE. -/
def gSample (e : GEnv) (s : GSt) (v : Nat) : GSt :=
  let (s, start, deg, po) := gDegree e s v
  if po then gCount e s 0 true
  else if deg = 0 then gCount e s 0 false
  else if opcOf e.p = 0x68 then
    let js := gDrawsU (bit e.p 199) (gWord e v) (gthFan e.p) deg
    let s := { s with draws := s.draws + js.length }
    gCount e (js.foldl (fun s j => gRecord e s (start + j) false) s) js.length false
  else
    let f := gthFan e.p
    let s := (List.range f).foldl (fun s q =>
      let (s, j, po) := gDrawW e s start deg v q
      gRecord e s (start + j) po) { s with draws := s.draws + f }
    gCount e s f false

/-- One input element. A poisoned one addresses nothing (R110; log entry 27). -/
def gElement (e : GEnv) (s : GSt) (el : Nat × Bool) : GSt :=
  let coo := opcOf e.p = 0x61
  let s := { s with held := if coo then s.held.take 6 else [], pois := el.2 }
  if el.2 then (if coo then gRecord e s 0 true else gCount e s 0 true)
  else if coo then gRecord e s (el.1 % 2 ^ 48) false
  else if opcOf e.p = 0x60 then gCsr e s (el.1 % 2 ^ 48)
  else if opcOf e.p = 0x62 then
    let len := bitsN el.1 144 32
    gCount e (gEdges e s (bitsN el.1 96 48) len) len false
  else gSample e s (el.1 % 2 ^ 48)

/-- Bytes of a whole record. -/
def gRecBytes (p : Packet) (d : Desc) : Nat := if gthRec p = 2 then 128 * gFblks d else gRecSize p d

/-- CRAG_GOUT: records whose bytes have all left for the destination. -/
def goutOf (o : Op) : Nat :=
  o.count - ceilDiv ((o.outQ.map fun e => e.2.bytes.length).sum + o.walk.pack.length) (max 1 (gRecBytes o.pkt o.desc))

/-- The present row image of the count list, with a new entry (R121, R218): its address and bytes. -/
def countImage (o : Op) (cs : List (Nat × Bool)) : Nat × List Byte × Bool :=
  (fld o.pkt 162 8 * 4096 + 128 * (o.walk.pos / 32), padTo 128 0 (cs.flatMap fun x => natLe 4 x.1), cs.any (·.2))

/-- Writes to the Ledge one after another. -/
def noteWrites (p : Packet) (x : Crag) (l : List (Nat × List Byte × Bool)) : Except OpErr Crag :=
  l.foldlM (fun x q => opWrite x p q.1 q.2.1 q.2.2) x

/-- The last of an op's puts also carries a write. -/
def noteLast (ps : List PutLeft) (q : Nat × List Byte × Bool) : List PutLeft :=
  ps.mapIdx fun i l => if i + 1 = ps.length then { l with notes := l.notes ++ [q] } else l

/-- An op whose flush to the Ledge met an error: the bytes before the first one outside its range have left (R57, Table 7.10). -/
def flushFailed (o : Op) (e : OpErr) : Op :=
  let n := e.addr % 2 ^ 20 - ledgeWrap (opndLedge (dstOf o.pkt) + o.walk.ledgeAt)
  { o with walk := { o.walk with pack := o.walk.pack.drop n } }

/-- Records put out piece by piece, so many pieces each: a record counts once its last piece is in the entry being filled. -/
def gDeliver (per : Nat) : Nat → Crag → Op → List (List Byte × Bool) → Except (OpErr × Op) (Crag × Op)
  | i, x, o, [] => .ok (x, { o with count := o.count + i / max per 1 })
  | i, x, o, q :: qs =>
    match wPut false x o q.1 q.2 with
    | .error e => .error (e, flushFailed { o with count := o.count + i / max per 1 } e)
    | .ok (x, o) => gDeliver per (i + 1) x o qs

/-- Pieces of one record. -/
def gPieces (o : Op) : Nat := if gthRec o.pkt = 2 then gFblks o.desc else 1

/-- The element is taken in: its records are delivered and the poison it read is noted (Tables 7.10 and 7.11). -/
def gTake (c : Nat) (s : GSt) (o : Op) : Except (OpErr × Op) (Crag × Op) :=
  gDeliver (gPieces o) 0 (notePois (getCrag s.w c) o s.pois) { o with walk := { o.walk with pos := o.walk.pos + 1 } } s.recs

/-- An element's results are delivered: its records, and its count-list entry, which a split hub's last put leaves behind it (R217, R218,
R227). -/
def gCommit (c : Nat) (s : GSt) (o : Op) : Except (OpErr × Op) (Crag × Op) := do
  let k := o.walk
  let (x, q) ← gTake c s o
  let cs := (if k.counts.length = 32 then [] else k.counts) ++ s.cnt.toList
  let img := countImage o cs
  let deg := gthDeg o.pkt && s.cnt.isSome
  let x ← if deg && s.puts = [] then (noteWrites o.pkt x [img]).mapError fun e => (e, q) else .ok x
  pure (x, { q with
    puts := if deg then noteLast s.puts img else s.puts
    walk := { q.walk with
      got := [], held := s.held, counts := cs, notes := s.notes, blocks := k.blocks + s.blocks, draws := k.draws + s.draws } })

/-- The error of an element: it has been taken in, and the records before the error stand (R57). -/
def gFail (c : Nat) (s : GSt) (o : Op) (e : OpErr) : WalkRes :=
  match gTake c s o with
  | .error (f, q) => .fail s.w q f
  | .ok (x, q) => .fail (setCrag s.w c x) q e

/-- One step of GATHER or SAMPLE: one input element, or the op's end (R217, R219). -/
def gatherStep (w : Work) (c : Nat) (o : Op) : WalkRes :=
  let k := o.walk
  if gthCount o.pkt ≤ k.pos then
    if k.pack = [] then .rest w { o with stage := .done, cycles := 1 + max k.blocks (k.pos + k.draws) } 1
    else
      match wFlush (getCrag w c) o true with
      | .error e => .fail w (flushFailed o e) e
      | .ok (x, o) => .go (setCrag w c x) o
  else
    match takeIn w c o (gElem o.pkt o.desc) with
    | (w, o, .error e) => .fail w o e
    | (w, o, .ok none) => .rest w { o with stage := .gathering } 3
    | (w, o, .ok (some (el, es))) =>
      let s := gElement (gEnv w c o) (gStart w o) el
      match s.miss, s.err with
      | some a, _ => askBlock w c o false (fld o.desc 112 16) a
      | none, some e => gFail c s o e
      | none, none =>
        match gCommit c s { o with inA := es } with
        | .error (e, o) => .fail s.w o e
        | .ok (x, o) => .go (setCrag s.w c x) o

end Sys2Proof.Machine
end

