-- ==== Sys2Proof/Machine/Embed.lean ====
section
/-! DEFINITION. Embedding tables (R234 to R263): directory entries, resolving an index, POOL and POOL.PREFETCH, sending
updates, and the Update Units with their migrations. -/

namespace Sys2Proof.Machine

/-! ## Arguments (Table 8.4) and directory entry (Table 8.1) -/

def embTab (p : Packet) : Nat := fld p 128 12
def embCount (p : Packet) : Nat := fld p 144 16
/-- Bytes of an index in the list (R238). -/
def embIdx (p : Packet) : Nat := if bit p 160 then 8 else 4
def poolPop (p : Packet) : Nat := fld p 161 2
def poolOfmt (p : Packet) : Nat := fld p 163 4
def embRnd (p : Packet) : Bool := bit p 167

def eAsp (d : Desc) : Nat := fld d 48 2
def eRfmt (d : Desc) : Nat := fld d 51 3
def eOpt (d : Desc) : Nat := fld d 54 2
def eFwd (d : Desc) : Bool := bit d 56
/-- Bytes of row data. -/
def eRowB (d : Desc) : Nat := 32 * fld d 64 8
def eRows (d : Desc) : Nat := fld d 72 48
def eSplit (d : Desc) : Nat := fld d 120 48
/-- Elements of a row (R235). -/
def eElems (d : Desc) : Nat := eRowB d * 8 / fmtBits (eRfmt d)
/-- Bytes of Adam's moments, padded. -/
def eMom (d : Desc) : Nat := (2 * eElems d + 31) / 32 * 32
/-- SLOT (R235). -/
def eSlot (d : Desc) : Nat :=
  match eOpt d with
  | 0 => eRowB d
  | 1 => eRowB d + 32
  | _ => eRowB d + eMom d + 32

/-- Slot of row i from a first page (R235). -/
def slotAt (d : Desc) (base i : Nat) : Nat :=
  let rpp := 4096 / max (eSlot d) 1
  (base + 4096 * (i / max rpp 1) + eSlot d * (i % max rpp 1)) % 2 ^ 48

def homeSlot (d : Desc) (i : Nat) : Nat := slotAt d (fld d 0 48) i
def bucketOf (d : Desc) (i : Nat) : Nat := (fld d 304 48 + 128 * (i % 2 ^ fld d 248 8)) % 2 ^ 48

/-- An index that names no row (R242). -/
def idxDefault (p : Packet) (d : Desc) (i : Nat) : Bool :=
  i = (if bit p 160 then 2 ^ 48 - 1 else 2 ^ 32 - 1) || eRows d ≤ i

/-- The value of an index as held in its list: U48 indices have their low 48 bits. -/
def idxVal (p : Packet) (v : Nat) : Nat := if bit p 160 then v % 2 ^ 48 else v

/-- POOL and EUPD packets (R237 to R239). -/
def embLegal (p : Packet) : Bool :=
  let o := opcOf p
  let src := fun f => (opnd f).isLedge || (opnd f).isPop false
  let optim := o = 0x7A || o = 0x7B || o = 0x7C
  !schedOf p && src (srcA p) && (opnd (srcC p)).isNone && fld p 140 4 = 0 &&
    (if o = 0x70 then
       (opnd (srcB p)).isNone && ((opnd (dstOf p)).isLedge || (opnd (dstOf p)).isPush false) && poolPop p ≠ 3 &&
         poolOfmt p ≤ 4 && !(embRnd p && poolOfmt p = 0) && fld p 195 61 = 0
     else if o = 0x71 then
       (opnd (srcB p)).isNone && (opnd (dstOf p)).isNone && fld p 161 31 = 0 && fld p 194 62 = 0
     else if o = 0x78 ∨ o = 0x79 ∨ o = 0x7E ∨ optim then
       src (srcB p) && (opnd (dstOf p)).isNone && fld p 161 6 = 0 && fld p 168 8 = 0 && fld p 192 3 = 0 &&
         (if optim then fld p 203 53 = 0 else fld p 195 61 = 0)
     else false)

/-- Rules of R240. -/
def dirBad (p : Packet) (d : Desc) : Bool :=
  let o := opcOf p
  !bit d 50 || fld d 57 7 ≠ 0 || fld d 352 160 ≠ 0 || eAsp d = 1 || eAsp d = 3 || 5 ≤ eRfmt d || eOpt d = 3 ||
    fld d 64 8 = 0 || 128 < fld d 64 8 || 25 ≤ fld d 248 8 || 4096 < eSlot d || eRows d < eSplit d ||
    (o = 0x7B && eOpt d ≠ 1) || (o = 0x7C && eOpt d ≠ 2) || (o = 0x7E && (!eFwd d || eAsp d ≠ 0))

/-- The hyperparameter block (Table 8.5), which an optimiser op reads when it starts (R247): LR, EPS, B1, B2, and its poison. -/
def hypOf (x : Crag) (p : Packet) : Except OpErr (List W32 × Bool) :=
  if 0x7A ≤ opcOf p ∧ opcOf p ≤ 0x7C then
    (opRead x p (fld p 195 8 * 4096) 64).map fun b =>
      ((chunks 4 (b.1.take 16)).map fun v => BitVec.ofNat 32 (leNat v), b.2)
  else .ok ([], false)

/-- The directory entry as the op reads it (R240; class 2 under R347), its poison, and CRAG_EMBGEN. The Ledge byte of a
BAD_DESC is open here, since the entry is not in the Ledge (log entry 4). -/
def embCheck (w : Work) (c : Nat) (p : Packet) : Work × Except OpErr (Desc × Bool) :=
  let t := tenOfCrag w c
  match vRead w (.crag c) (req 2 t) ((od w 0x400E 0 t + 64 * embTab p) % 2 ^ 48) 64 with
  | (w, _, _, some f) => (w, .error ⟨0x07, f, none⟩)
  | (w, bs, po, none) =>
    let d : Desc := BitVec.ofNat 512 (leNat bs)
    let x := getCrag w c
    let w := setCrag w c { x with ac := { x.ac with embGen := BitVec.ofNat 16 (fld d 232 16), embTable := BitVec.ofNat 12 (embTab p) } }
    if dirBad p d then
      let (v, w) := freeVal w
      (w, .error ⟨0x08, fld v 0 20 + seqOf p * 2 ^ 20, none⟩)
    else (w, .ok (d, po))

/-! ## Resolving (R242) -/

/-- Entries of a bucket: row, state, new address (Table 8.6). -/
def bucketEntry (bs : List Byte) (k : Nat) : Nat × Nat × Nat :=
  let v := leNat ((bs.drop (16 * k)).take 16)
  (bitsN v 0 48, bitsN v 48 2, bitsN v 64 48)

/-- The entry of a bucket that holds a row. -/
def bucketFind (bs : List Byte) (i : Nat) : Option (Nat × Nat × Nat) :=
  (List.range 8).findSome? fun k =>
    let e := bucketEntry bs k
    if e.1 = i ∧ e.2.1 ≠ 0 then some (k, e.2) else none

/-- Where an index lies (R242), with a bucket read at class 0 first: its place and the bucket's poison, blocks requested. -/
def resolve (w : Work) (c : Nat) (p : Packet) (d : Desc) (i : Nat) : Work × Except OpErr (RowAt × Bool) × Nat :=
  let home := if eAsp d = 2 then RowAt.remote (homeSlot d i) else RowAt.device (homeSlot d i)
  let plain := if eSplit d ≤ i then RowAt.cold (slotAt d (fld d 168 48) (i - eSplit d)) else home
  if idxDefault p d i then (w, .ok (.default_ (fld d 256 48), false), 0)
  else if eFwd d then
    match vRead w (.crag c) (req 0 (tenOfCrag w c)) (bucketOf d i) 128 with
    | (w, _, _, some f) => (w, .error ⟨0x07, f, none⟩, 0)
    | (w, bs, po, none) =>
      match bucketFind bs i with
      | some (_, 2, a) => (w, .ok (.device a, po), 1)
      | some (_, 3, a) => (w, .ok (.device a, po), 1)
      | _ => (w, .ok (plain, po), 1)
  else (w, .ok (plain, false), 0)

/-- One counter of the Crag's embedding registers. -/
def embNote (w : Work) (c : Nat) (f : AccessRegs → AccessRegs) : Work :=
  let x := getCrag w c
  setCrag w c { x with ac := f x.ac }

/-- Elements of row data as exact values. -/
def rowVals (d : Desc) (bs : List Byte) : List FVal :=
  let b := fmtBits (eRfmt d) / 8
  (chunks b bs).map fun e => elemVal (eRfmt d) (leNat e)

/-- FP32 sum of rows, element by element, in order (R243). -/
def sumRows (e : Nat) : List (List FVal) → List FVal
  | [] => List.replicate e fzero
  | r :: rs => rs.foldl (fun acc row => acc.mapIdx fun k v => (fadd v (row.getD k fzero)).1) r

/-- One output row: values of the pooled rows to codes of OFMT, under the seed read when the op started (R243, R389). -/
def poolOut (c : Nat) (o : Op) (e row : Nat) (vs : List FVal) : List Nat :=
  vs.mapIdx fun k v =>
    let r := if embRnd o.pkt then Rnd.sto (rndWord o.seed c (fld o.pkt 176 16) o.epoch (row * e + k)) else .rne
    (convF (poolOfmt o.pkt) r v).1

/-- Length of a bag and its poison: one index each without pooling. -/
def bagLen (x : Crag) (p : Packet) (b : Nat) : Except OpErr (Nat × Bool) :=
  if poolPop p = 0 then .ok (1, false)
  else (opRead x p (fld p 168 8 * 4096 + 4 * b) 4).map fun r => (leNat r.1, r.2)

/-- The result of a bag of rows as a row image (R243). -/
def bagImage (c : Nat) (o : Op) (row : Nat) (rows : List (List Byte)) : List Byte :=
  let e := eElems o.desc
  let sum := sumRows e (rows.map (rowVals o.desc))
  let vs := if poolPop o.pkt = 2 ∧ rows ≠ [] then sum.map fun v => (fdiv v (to32 (ofIntF rows.length)).1).1 else sum
  packRow (poolOfmt o.pkt) (poolOut c o e row vs)

/-- A bag is full: its row image goes out, poisoned by any of its rows, its length or the directory entry (R110, R263). -/
def poolEmit (w : Work) (c : Nat) (o : Op) (lpo : Bool) : WalkRes :=
  let k := o.walk
  let po := lpo || o.descPois || k.rows.any (·.2)
  match wPuts true (notePois (getCrag w c) o po) o ((chunks 128 (bagImage c o k.row (k.rows.map (·.1)))).map fun b => (b, po)) with
  | .error e => .fail w o e
  | .ok (x, o) => .go (setCrag w c x) { o with count := o.count + 1, walk := { o.walk with row := k.row + 1, rows := [] } }

/-- A row of the bag has been read: the index is done. -/
def poolRow (w : Work) (c : Nat) (o : Op) (es : List Entry) (bs : List Byte) (po : Bool) (blocks : Nat) : WalkRes :=
  let k := o.walk
  .go (noteCrag w c o po)
    { o with inA := es, walk := { k with pos := k.pos + 1, at_ := none, got := [], rows := k.rows ++ [(bs, po)], blocks := k.blocks + blocks } }

/-- The first bytes of the row at a resolved place (R243): from device memory, from another device, or from the host (R256). -/
def poolRead (w : Work) (c : Nat) (o : Op) (es : List Entry) (at_ : RowAt) (bpo : Bool) : WalkRes :=
  let p := o.pkt
  let n := eRowB o.desc
  let dev := fun (a : Nat) =>
    match vRead w (.crag c) ⟨fld p 192 2, tenOfCrag w c, bit p 194, false⟩ a n with
    | (w, _, _, some f) => WalkRes.fail w o ⟨0x07, f, none⟩
    | (w, bs, po, none) => poolRow w c o es bs (bpo || po) (pieces a n).length
  let ext := fun (host : Bool) (a : Nat) (note : Work → Work) =>
    match extRead o.walk host a n with
    | .error b => askBlock w c o host (fld o.desc 216 16) b
    | .ok (bs, po) => poolRow (note w) c o es bs (bpo || po) (pieces a n).length
  match at_ with
  | .default_ a => dev a
  | .device a => dev a
  | .remote a => ext false a id
  | .cold a => ext true a fun w => embNote w c fun x => { x with embCold := bump x.embCold 1 }

/-- One index of a bag. A poisoned one is not read: it counts as a zero row with poison (R110, R263). -/
def poolIndex (w : Work) (c : Nat) (o : Op) : WalkRes :=
  match takeIn w c o (embIdx o.pkt) with
  | (w, o, .error e) => .fail w o e
  | (w, o, .ok none) => .rest w { o with stage := .gathering } 3
  | (w, o, .ok (some (el, es))) =>
    if el.2 then poolRow w c o es (zeros (eRowB o.desc)) true 0
    else
      match o.walk.at_ with
      | some (a, po) => poolRead w c o es a po
      | none =>
        match resolve w c o.pkt o.desc (idxVal o.pkt el.1) with
        | (w, .error e, _) => .fail w o e
        | (w, .ok (a, po), n) =>
          let w := match a with
            | .default_ _ => embNote w c fun x => { x with embDef := bump x.embDef 1 }
            | _ => w
          .go w { o with walk := { o.walk with at_ := some (a, po), blocks := o.walk.blocks + n } }

/-- One step of POOL (R243, R244): an index, a full bag, or the op's end. -/
def poolStep (w : Work) (c : Nat) (o : Op) : WalkRes :=
  let k := o.walk
  if embCount o.pkt ≤ k.row then
    if k.pack = [] then .rest w { o with stage := .done, cycles := 1 + max k.blocks (k.pos + k.row) } 1
    else
      match wFlush (getCrag w c) o true with
      | .error e => .fail w o e
      | .ok (x, o) => .go (setCrag w c x) o
  else
    match bagLen (getCrag w c) o.pkt k.row with
    | .error e => .fail w o e
    | .ok (n, lpo) => if n ≤ k.rows.length then poolEmit w c o lpo else poolIndex w c o

/-! ## POOL.PREFETCH (R245) -/

/-- Requests bytes of device memory with allocation, raising no fault: blocks that cannot be read are skipped; none: an address has no
translation. The data, its poison, and the blocks requested. -/
def quietRead (w : Work) (c : Nat) (r : Req) (va n : Nat) : Work × Option (List Byte × Bool × Nat) :=
  (pieces va n).foldl (fun acc q =>
    match acc with
    | (w, none) => (w, none)
    | (w, some (bs, po, k)) =>
      match xlate w (.crag c) r.ten q.1 false with
      | (w, none) => (w, none)
      | (w, some a) =>
        if paStatus w a = .ok then
          let (w, b, p) := readPa w r a q.2
          (w, some (bs ++ b, po || p, k + 1))
        else (w, some (bs ++ zeros q.2, true, k))) (w, some ([], false, 0))

/-- The address of a row that lies in device memory and is not the default row; its bucket is read as for a look-up. -/
def prefetchAt (w : Work) (c : Nat) (p : Packet) (d : Desc) (i : Nat) : Work × Option (Nat × Bool × Nat) :=
  let plain := if eSplit d ≤ i || eAsp d = 2 then none else some (homeSlot d i)
  if idxDefault p d i then (w, none)
  else if eFwd d then
    match quietRead w c (req 0 (tenOfCrag w c)) (bucketOf d i) 128 with
    | (w, none) => (w, none)
    | (w, some (bs, po, k)) =>
      match bucketFind bs i with
      | some (_, 2, a) => (w, some (a, po, k))
      | some (_, 3, a) => (w, some (a, po, k))
      | _ => (w, plain.map fun a => (a, po, k))
  else (w, plain.map fun a => (a, false, 0))

/-- One step of POOL.PREFETCH: an index, or the op's end. -/
def prefetchStep (w : Work) (c : Nat) (o : Op) : WalkRes :=
  let p := o.pkt
  let k := o.walk
  if embCount p ≤ k.pos then .rest w { o with stage := .done, cycles := 1 + max k.blocks k.pos } 1
  else
    match takeIn w c o (embIdx p) with
    | (w, o, .error e) => .fail w o e
    | (w, o, .ok none) => .rest w { o with stage := .gathering } 3
    | (w, o, .ok (some (el, es))) =>
      let next := fun (w : Work) (po : Bool) (n blocks : Nat) =>
        WalkRes.go (noteCrag w c o po)
          { o with inA := es, count := o.count + n, walk := { o.walk with pos := k.pos + 1, blocks := k.blocks + blocks } }
      if el.2 then next w true 0 0
      else
        match prefetchAt w c p o.desc (idxVal p el.1) with
        | (w, none) => next w false 0 0
        | (w, some (a, po, m)) =>
          match quietRead w c ⟨fld p 192 2, tenOfCrag w c, false, false⟩ a (eRowB o.desc) with
          | (w, none) => next w po 0 m
          | (w, some (_, q, n)) => next w (po || q) 1 (m + n)

/-! ## Sending updates (R246 to R250) -/

/-- Bytes of a row image of E FP32 elements in SRCB. -/
def eupdValB (d : Desc) : Nat := rowBytes 0 (eElems d)

/-- The value row or destination of SRCB that belongs to the present index, with its poison, and the entries left without it; none while its
queue holds too little. -/
def takeVal (w : Work) (c : Nat) (o : Op) : Work × Op × Except OpErr (Option ((Nat × Bool) × List Entry)) :=
  let p := o.pkt
  let mig := opcOf p = 0x7E
  let n := eupdValB o.desc / 128
  match opnd (srcB p) with
  | .queue q =>
    let enough := fun (es : List Entry) => if mig then (nextElem 8 es).isSome else decide (n ≤ es.length)
    let (x, es) := fillWith q enough 33 (getCrag w c) o.inB
    (setCrag w c x, { o with inB := es }, .ok
      (if mig then nextElem 8 es
       else if n ≤ es.length then some ((leNat ((es.take n).flatMap entryBytes), (es.take n).any (·.poison)), es.drop n)
       else none))
  | _ =>
    let size := if mig then 8 else eupdValB o.desc
    (w, o, (opRead (getCrag w c) p (opndLedge (srcB p) + size * o.walk.pos) size).map fun b => some ((leNat b.1, b.2), o.inB))

/-- The Update Unit that serves an address: unit u serves channels 3u to 3u + 2 (R20, R246). -/
def unitOfPa (w : Work) (a : Nat) : Nat :=
  match mapPa w a with
  | some (ch, _) => ch / 3
  | none => 0

/-- One update of an EUPD counted as acknowledged: performed, or not (R250). The op is done when none is left. -/
def eupdAck (w : Work) (c n : Nat) (performed : Bool) : Work :=
  let x := getCrag w c
  match findOp x n with
  | none => w
  | some o =>
    let o := { o with acks := o.acks - 1, count := o.count + b2n performed }
    setCrag w c (setOp x { o with stage := if o.acks = 0 ∧ o.stage = .acking then .done else o.stage })

/-- An update that meets poison (R249): counted, and POISON raised once by its op. -/
def eupdPoison (w : Work) (c n ten addr : Nat) : Work :=
  let w := embNote w c fun x => { x with euPois := bump x.euPois 1, embPois := true }
  match findOp (getCrag w c) n with
  | none => raise w (srcCrag w c) 0x0A ten addr
  | some o =>
    if o.poisonSent then w
    else
      let w := setCrag w c (setOp (getCrag w c) { o with poisonSent := true })
      raise w (srcCrag w c) 0x0A ten addr

/-- A migration of a row of a table that has not switched yet. -/
def migOf (m : UpdUnit) (x : Upd) : Option Mig :=
  m.migs.find? fun g =>
    decide (g.phase < 2) && decide (g.ten = x.ten) && decide (g.row = x.idx) && decide (g.dirEnt = x.dirEnt)

/-- Updates a unit holds for its migrations. -/
def heldCount (m : UpdUnit) : Nat := (m.migs.map fun g => g.held.length).sum

/-- An update that finds the unit's hold full (R259). -/
def holdFull (m : UpdUnit) (x : Upd) : Bool := x.opc ≠ 0x7E && (migOf m x).isSome && decide (256 ≤ heldCount m)

/-- An EUPD waits while an update it sent finds a hold full (R259). -/
def eupdBlocked (w : Work) (c n : Nat) : Bool :=
  w.upds.any fun e => match e.2.queue with
    | x :: _ => decide (x.crag = c) && decide (x.op = n) && holdFull e.2 x
    | [] => false

/-- The update of one index. -/
def updOf (w : Work) (c : Nat) (o : Op) (i v : Nat) : Upd :=
  let p := o.pkt
  let row := (List.range (if opcOf p = 0x7E then 0 else eElems o.desc)).map fun k => BitVec.ofNat 32 (bitsN v (32 * k) 32)
  { crag := c, op := o.n, opc := BitVec.ofNat 8 (opcOf p), ten := tenOfCrag w c, dirEnt := o.desc, idx := i, row := row, hyp := o.hyp,
    dest := bitsN v 0 48, rnd := embRnd p, epoch := o.epoch, rstream := BitVec.ofNat 16 (fld p 176 16), seed := o.seed }

/-- One index of an EUPD: sent to its home Update Unit, here or on another device, skipped (R248), or not performed for poison (R249). The
op's acks count what is under way. A device that originates no requests sends none to another (R469), and a standby's is not sent over
Traverse and counts as done (R480). -/
def eupdOne (w : Work) (c : Nat) (o : Op) (el val : Nat × Bool) : Work × Except OpErr Op :=
  let p := o.pkt
  let d := o.desc
  let i := idxVal p el.1
  let home := homeSlot d i
  let x := updOf w c o i val.1
  if el.2 || val.2 || o.descPois || o.hypPois then
    let w := embNote w c fun x => { x with euPois := bump x.euPois 1, embPois := true }
    (if o.poisonSent then w else cragNote w c 0x0A home, .ok { o with poisonSent := true })
  else if idxDefault p d i || eSplit d ≤ i then (embNote w c fun x => { x with euSkip := bump x.euSkip 1 }, .ok o)
  else if eAsp d = 2 then
    let dev := fld d 216 16
    let n := 4 * x.row.length
    if silenced w then (w, .ok o)
    else if isStandby w && twinId w ≠ some dev then (suppress1 w, .ok { o with count := o.count + 1 })
    else
      (meterRidge (meterTrav (emit w (.remoteUpdate dev home x)) x.ten n) x.ten n,
        .ok { o with acks := o.acks + 1, remoteUps := o.remoteUps ++ [home] })
  else
    match xlate w (.crag c) x.ten home true with
    | (w, none) => (w, .error ⟨0x07, home, none⟩)
    | (w, some a) =>
      let u := unitOfPa w a
      let m := getUpd w u
      (meterRidge (setUpd w u { m with queue := m.queue ++ [x] }) x.ten (4 * x.row.length), .ok { o with acks := o.acks + 1 })

/-- One step of an EUPD: an index with its value, or the end of its list; the op then waits for its updates (R250). -/
def eupdStep (w : Work) (c : Nat) (o : Op) : WalkRes :=
  let k := o.walk
  if embCount o.pkt ≤ k.pos then
    .rest w { o with cycles := embCount o.pkt, stage := if o.acks = 0 then .done else .acking } 1
  else if eupdBlocked w c o.n then .rest w { o with stage := .waiting } 4
  else
    match takeIn w c o (embIdx o.pkt) with
    | (w, o, .error e) => .fail w o e
    | (w, o, .ok none) => .rest w { o with stage := .gathering } 3
    | (w, o, .ok (some (el, es))) =>
      match takeVal w c o with
      | (w, o, .error e) => .fail w o e
      | (w, o, .ok none) => .rest w { o with stage := .gathering } 3
      | (w, o, .ok (some (v, vs))) =>
        match eupdOne w c o el v with
        | (w, .error e) => .fail w o e
        | (w, .ok o) => .go w { o with inA := es, inB := vs, walk := { o.walk with pos := k.pos + 1 } }

/-! ## The Update Units -/

/-- The random word of element e of row i, under the seed read when the op started (R247, R389). -/
def updWord (x : Upd) (e : Nat) : Nat :=
  let seed := x.seed.toNat
  philox (bitsN seed 0 32, bitsN seed 32 32)
    (bitsN x.idx 0 32, e / 4 % 2 ^ 16 * 2 ^ 16 + bitsN x.idx 32 16, fld x.epoch 0 32,
      fld x.epoch 32 16 * 2 ^ 16 + x.rstream.toNat) e

def fp (v : W32) : FVal := f32 v
def fpAt (bs : List Byte) (a : Nat) : FVal := f32 (BitVec.ofNat 32 (leNat ((bs.drop a).take 4)))
def fpBytes (v : FVal) : List Byte := natLe 4 (code32 v).toNat

/-- Sum of squares in ascending order (R247). -/
def sumSq (gs : List FVal) : FVal :=
  match gs.map fun g => (fmul g g).1 with
  | [] => fzero
  | s :: ss => ss.foldl (fun a b => (fadd a b).1) s

/-- The slot after an update (R247): new row elements and new state. -/
def updSlot (x : Upd) (slot : List Byte) : List Byte :=
  let d : Desc := x.dirEnt
  let rb := eRowB d
  let ws := rowVals d (slot.take rb)
  let gs := x.row.map fp
  let h := fun k => fp (x.hyp.getD k 0)
  let e := (to32 (ofIntF (eElems d))).1
  let last := eSlot d - 32
  let st := slot.drop rb
  let (news, st) : List FVal × List Byte :=
    match x.opc.toNat with
    | 0x78 => (gs, st)
    | 0x79 => (ws.mapIdx fun k v => (fadd v (gs.getD k fzero)).1, st)
    | 0x7A => (ws.mapIdx fun k v => (fsub v (fmul (h 0) (gs.getD k fzero)).1).1, st)
    | 0x7B =>
      let g := (fadd (fpAt slot last) (fdiv (sumSq gs) e).1).1
      let den := (fadd (fsqrt g).1 (h 1)).1
      (ws.mapIdx fun k v => (fsub v (fdiv (fmul (h 0) (gs.getD k fzero)).1 den).1).1, fpBytes g ++ st.drop 4)
    | 0x7C =>
      let b1 := h 2
      let b2 := h 3
      let t := min (leNat ((slot.drop (last + 12)).take 4) + 1) (2 ^ 32 - 1)
      let p1 := (fmul (fpAt slot (last + 4)) b1).1
      let p2 := (fmul (fpAt slot (last + 8)) b2).1
      let v := (fadd (fmul b2 (fpAt slot last)).1 (fmul (fsub fone b2).1 (fdiv (sumSq gs) e).1).1).1
      let ms := (List.range (eElems d)).map fun k =>
        let m := bf16.decode (leNat ((slot.drop (rb + 2 * k)).take 2))
        (bf16.encode .rne (fadd (fmul b1 m).1 (fmul (fsub fone b1).1 (gs.getD k fzero)).1).1).1
      let den := (fadd (fsqrt (fdiv v (fsub fone p2).1).1).1 (h 1)).1
      let news := ws.mapIdx fun k wv =>
        let mh := (fdiv (bf16.decode (ms.getD k 0)) (fsub fone p1).1).1
        (fsub wv (fdiv (fmul (h 0) mh).1 den).1).1
      let moments := ms.flatMap (natLe 2)
      (news, moments ++ (st.drop moments.length).take (eMom d - moments.length) ++
        fpBytes v ++ fpBytes p1 ++ fpBytes p2 ++ natLe 4 t ++ slot.drop (last + 16))
    | _ => (ws, st)
  let codes := news.mapIdx fun k v =>
    (convF (eRfmt d) (if x.rnd then .sto (updWord x k) else .rne) v).1
  codes.flatMap (natLe (fmtBits (eRfmt d) / 8)) ++ st

/-- The request an Update Unit makes: class 1 (R253), from its Port die. -/
def updReq (t : Nat) : Req := reqPort 1 t

/-- One update applied to the slot at an address, atomically (R246, R249). -/
def updAt (w : Work) (u : Nat) (x : Upd) (a : Nat) : Work :=
  let d : Desc := x.dirEnt
  let n := eSlot d
  match vRead w (.upd u) (updReq x.ten) a n with
  | (w, _, _, some f) => eupdAck (raise w (srcUpd u) 0x07 x.ten f) x.crag x.op false
  | (w, bs, po, none) =>
    if po then eupdAck (eupdPoison w x.crag x.op x.ten (homeSlot d x.idx)) x.crag x.op false
    else
      match vWrite w (.upd u) (updReq x.ten) a (updSlot x bs) false with
      | (w, some f) => eupdAck (raise w (srcUpd u) 0x07 x.ten f) x.crag x.op false
      | (w, none) =>
        let m := getUpd w u
        let w := setUpd w u { m with rowsDone := bump m.rowsDone 1, slotBytes := bump m.slotBytes n }
        eupdAck w x.crag x.op true

/-- A bucket as an Update Unit reads it: class 0 (R242). -/
def updBucket (w : Work) (u : Nat) (x : Upd) : Work × Option (List Byte × Bool) :=
  match vRead w (.upd u) (reqPort 0 x.ten) (bucketOf x.dirEnt x.idx) 128 with
  | (w, _, _, some f) => (raise w (srcUpd u) 0x07 x.ten f, none)
  | (w, bs, po, none) => (w, some (bs, po))

/-- Writes a forwarding entry in one write (Table 8.6). -/
def writeEntry (w : Work) (u ten a row state new : Nat) : Work :=
  let v := if state = 0 then 0 else row + state * 2 ^ 48 + new * 2 ^ 64
  match vWrite w (.upd u) (reqPort 0 ten) a (natLe 16 v) false with
  | (w, some f) => raise w (srcUpd u) 0x07 ten f
  | (w, none) => w

/-- A refused migration (R258). -/
def migRefuse (w : Work) (x : Upd) : Work :=
  eupdAck (embNote w x.crag fun r => { r with migRef := bump r.migRef 1 }) x.crag x.op false

/-- The claim of a migration (R258, step 1). -/
def migClaim (w : Work) (u : Nat) (x : Upd) : Work :=
  match updBucket w u x with
  | (w, none) => eupdAck w x.crag x.op false
  | (w, some (bs, po)) =>
    if po then eupdAck (eupdPoison w x.crag x.op x.ten (homeSlot x.dirEnt x.idx)) x.crag x.op false
    else
      let at_ := fun k => (bucketOf x.dirEnt x.idx + 16 * k) % 2 ^ 48
      let start := fun (w : Work) (k state new src dst : Nat) =>
        let w := writeEntry w u x.ten (at_ k) x.idx state new
        let m := getUpd w u
        let g : Mig := ⟨x.crag, x.op, x.ten, x.idx, x.dirEnt, at_ k, dst, src, state, 0, []⟩
        setUpd w u { m with migs := m.migs ++ [g] }
      let home := homeSlot x.dirEnt x.idx
      match bucketFind bs x.idx with
      | some (k, 2, new) => if x.dest = 0 then start w k 3 new new home else migRefuse w x
      | some _ => migRefuse w x
      | none =>
        match (List.range 8).find? fun k => (bucketEntry bs k).2.1 = 0 with
        | some k => if x.dest = 0 then migRefuse w x else start w k 1 x.dest home x.dest
        | none => migRefuse w x

/-- Whether an Update Unit accepts work: not after a fatal fault (R506). -/
def updRuns (w : Work) : Bool := !(w.dstate = .stopped && w.stopCause = 2)

/-- The unit takes the next update of its queue (R246, R258, R259). -/
def updateUnitApply (w : Work) (u : Nat) : Work :=
  let m := getUpd w u
  match m.queue with
  | [] => w
  | x :: rest =>
    let took := fun (w : Work) => setUpd w u { getUpd w u with queue := rest, served := x.ten }
    if !updRuns w then w
    else if x.opc = 0x7E then
      if 64 ≤ m.migs.length then w
      else migClaim (took w) u x
    else if (migOf m x).isSome then
      if holdFull m x then w
      else setUpd w u { m with queue := rest, served := x.ten, migs := m.migs.map fun g =>
        if g.phase < 2 ∧ g.ten = x.ten ∧ g.row = x.idx ∧ g.dirEnt = x.dirEnt then { g with held := g.held ++ [x] } else g }
    else
      let w := took w
      let d : Desc := x.dirEnt
      if eFwd d then
        match updBucket w u x with
        | (w, none) => eupdAck w x.crag x.op false
        | (w, some (bs, po)) =>
          if po then eupdAck (eupdPoison w x.crag x.op x.ten (homeSlot d x.idx)) x.crag x.op false
          else
            match bucketFind bs x.idx with
            | some (_, 2, a) => updAt w u x a
            | some (_, 3, a) => updAt w u x a
            | _ => updAt w u x (homeSlot d x.idx)
      else updAt w u x (homeSlot d x.idx)

/-- Replaces the first migration of a row that is in a phase. -/
def migStep (w : Work) (u row phase : Nat) (f : Work → Mig → Work × Option Mig) : Work :=
  match (getUpd w u).migs.find? fun g => g.row = row && g.phase = phase with
  | none => w
  | some g =>
    let r := f w g
    let m := getUpd r.1 u
    let same := fun (h : Mig) => h.phase = g.phase && h.ten = g.ten && h.row = g.row && h.dirEnt = g.dirEnt
    setUpd r.1 u { m with served := g.ten, migs := m.migs.filterMap fun h => if same h then r.2 else some h }

/-- The claim is acknowledged: the whole slot is copied (R258, step 2), but not after a fatal fault (R506). -/
def migClaimAck (w : Work) (u row : Nat) : Work :=
  if !updRuns w then w
  else migStep w u row 0 fun w g =>
    match vRead w (.upd u) (updReq g.ten) g.srcAt (eSlot g.dirEnt) with
    | (w, _, _, some f) => (raise w (srcUpd u) 0x07 g.ten f, some { g with phase := 1 })
    | (w, bs, po, none) =>
      match vWrite w (.upd u) (updReq g.ten) g.dst bs po with
      | (w, some f) => (raise w (srcUpd u) 0x07 g.ten f, some { g with phase := 1 })
      | (w, none) => (w, some { g with phase := 1 })

/-- The copy is acknowledged: held updates are applied in arrival order to the destination, and the entry switches
(R258, steps 3 and 4). -/
def migCopyAck (w : Work) (u row : Nat) : Work :=
  if !updRuns w then w
  else migStep w u row 1 fun w g =>
    let w := g.held.foldl (fun w x => updAt w u x g.dst) w
    let w := if g.state = 1 then writeEntry w u g.ten g.bucketAt g.row 2 g.dst else writeEntry w u g.ten g.bucketAt g.row 0 0
    (w, some { g with phase := 2, held := [] })

/-- The switch is acknowledged: the row has moved. -/
def migSwitchAck (w : Work) (u row : Nat) : Work :=
  migStep w u row 2 fun w g => (eupdAck w g.crag g.op true, none)

end Sys2Proof.Machine
end

