-- ==== Sys2Proof/Machine/Sparse.lean ====
section
/-! DEFINITION. Sparsity (R143 to R181): packed sequences, GMERGE, the SMMA family, 2:4 weights and pruning. -/

namespace Sys2Proof.Machine

/-! ## Tile headers and packed sequences (R145 to R149) -/

/-- A 128 B block with its poison. -/
abbrev Block := List Byte × Bool

def zeroBlock (p : Bool) : Block := (zeros 128, p)

def hdrL1 (h : Nat) : Nat := bitsN h 0 64
def hdrCount (h : Nat) : Nat := bitsN h 96 16
def hdrDense (h : Nat) : Bool := decide (bitsN h 112 1 = 1)
def hdrL0 (h : Nat) : Bool := decide (bitsN h 113 1 = 1)

/-- A header's 16 bytes (Table 5.2). -/
def mkHdr (l1 offset count : Nat) (dense l0 : Bool) : List Byte :=
  natLe 16 (l1 + offset % 2 ^ 32 * 2 ^ 64 + count * 2 ^ 96 + b2n dense * 2 ^ 112 + b2n l0 * 2 ^ 113)

/-- A tile as taken in: its data blocks by block number with their L0 masks (none: no mask), how many blocks of the sequence it took,
header included, whether its header, or one of its data or L0 blocks, was poisoned, and whether its header was. -/
structure Tile where
  dense : Bool
  l1    : Nat
  blocks : List (Nat × Block × Option Nat)
  taken : Nat
  pois  : Bool
  hp    : Bool

/-- Block numbers whose bit is set, ascending. -/
def setBitsOf (l1 : Nat) : List Nat := maskList 64 l1

/-- A tile from its header and the blocks that follow it (R147, R149, Table 5.9): blocks that L1 names and the sequence
does not supply read as zero, masks not supplied as all ones. All of it depends on the header (R110). -/
def mkTile (h : Nat) (hp : Bool) (bs : List Block) : Tile :=
  let taken := 1 + bs.length
  if hdrDense h then
    { dense := true, l1 := 2 ^ 64 - 1, taken := taken, hp := hp, pois := hp || (bs.take 64).any (·.2)
      blocks := (List.range 64).map fun b => (b, bs.getD b (zeroBlock false), none) }
  else
    let ns := setBitsOf (hdrL1 h)
    let l0s := bs.drop ns.length
    { dense := false, l1 := hdrL1 h, taken := taken, hp := hp
      pois := hp || (bs.take (ns.length + if hdrL0 h then (ns.length + 7) / 8 else 0)).any (·.2)
      blocks := ns.mapIdx fun i b =>
        let mask := if !hdrL0 h then none
          else match l0s[i / 8]? with
            | some m => some (bitsN (leNat m.1) (128 * (i % 8)) 128)
            | none => some (2 ^ 128 - 1)
        (b, bs.getD i (zeroBlock false), mask) }

/-- Entries still to pop, at least, before a packed sequence of some tiles is whole (R80). -/
def packedNeed : Nat → List Entry → Nat
  | 0, _ => 0
  | _ + 1, [] => 1
  | t + 1, h :: rest =>
    let c := hdrCount (leNat (h.bytes.take 16))
    if rest.length < c then c - rest.length else packedNeed t (rest.drop c)

/-- The tiles of a sequence that came from a queue. -/
def queueTiles : Nat → List Entry → List Tile
  | 0, _ => []
  | _ + 1, [] => []
  | t + 1, h :: rest =>
    let v := leNat (h.bytes.take 16)
    let c := hdrCount v
    let bs := (rest.take c).map fun e => (entryBytes e, e.poison)
    mkTile v h.poison bs :: queueTiles t (rest.drop c)

/-- A tile taken as DENSE with 64 poisoned zero blocks (R180). -/
def lostTile : Tile :=
  { dense := true, l1 := 2 ^ 64 - 1, taken := 65, pois := true, hp := true,
    blocks := (List.range 64).map fun b => (b, zeroBlock true, none) }

/-- The tiles of a sequence in the Ledge, and whether a poisoned header was met. A wrong COUNT whose blocks lie beyond the declared read
range raises LEDGE_BOUNDS under R57: R11 and R179 say what wrong metadata gives and that it raises no fault of its own
(log entry 128). -/
def ledgeTiles (x : Crag) (p : Packet) : Nat → Nat → Except OpErr (List Tile × Bool)
  | 0, _ => .ok ([], false)
  | t + 1, a => do
    let (hb, hp) ← opRead x p a 128
    if hp then pure (List.replicate (t + 1) lostTile, true)
    else
      let v := leNat (hb.take 16)
      let bs ← (List.range (hdrCount v)).mapM fun i => opRead x p (a + 128 * (i + 1)) 128
      let (ts, tail) ← ledgeTiles x p t (a + 128 * (hdrCount v + 1))
      pure (mkTile v false bs :: ts, tail)

/-- The tiles that SRCA names. -/
def tilesOf (x : Crag) (o : Op) (n : Nat) : Except OpErr (List Tile × Bool) :=
  match opnd (srcA o.pkt) with
  | .ledge r => ledgeTiles x o.pkt n (r * 4096)
  | _ => .ok (queueTiles n o.inA, false)

def markTail (x : Crag) (tail : Bool) : Crag :=
  if tail then { x with ex := { x.ex with gtail := true } } else x

/-! ## GMERGE (R153 to R157) -/

def gmTiles (p : Packet) : Nat := fld p 128 16

def gmLegal (p : Packet) : Bool :=
  let a := opnd (srcA p)
  let d := opnd (dstOf p)
  (opnd (srcB p)).isNone && (opnd (srcC p)).isNone &&
    (match opcOf p with
     | 0x38 => (a.isLedge || a.isPop true) && (d.isLedge || d.isPush true) && fld p 186 70 = 0
     | 0x39 => (a.isLedge || a.isPop true) && (d.isLedge || d.isPush true) && fld p 144 112 = 0
     | 0x3A => a.isLedge && d.isLedge && fld p 128 16 = 0 && fld p 160 16 % 4 = 0 && fld p 176 4 ≤ 9 &&
         fld p 181 59 = 0 && fld p 248 8 = 0
     | _ => false)

/-- A block's bytes that are non-zero, as an L0 mask. -/
def maskOf (bs : List Byte) : Nat := bitsToNat (bs.map fun b => b ≠ 0)

/-- One dense tile packed (R146 to R148, R152, R180): header and stored blocks; the number of data blocks stored, 64 of them
in a tile with DENSE set; COUNT. -/
def packTile (blocks : List Block) (l0 : Bool) (offset : Nat) : List Block × Nat × Nat :=
  let keep := (blocks.mapIdx fun b x => (b, x)).filter fun e => e.2.2 || e.2.1.any (· ≠ 0)
  let n := keep.length
  let nl := if l0 then (n + 7) / 8 else 0
  if 64 ≤ n + nl then
    ((padTo 128 0 (mkHdr (2 ^ 64 - 1) offset 64 true false), false) :: blocks, 64, 64)
  else
    let l1 := keep.foldl (fun a e => a + 2 ^ e.1) 0
    let masks := (chunks 8 keep).map fun g =>
      (padTo 128 0 (g.flatMap fun e => natLe 16 (maskOf e.2.1)), g.any fun e => e.2.2)
    ((padTo 128 0 (mkHdr l1 offset (n + nl) false l0), false) :: keep.map (·.2) ++ (if l0 then masks else []),
      n, n + nl)

/-- Tiles packed one after another: blocks with a mark for headers, data blocks stored, L0 blocks, L2 bits. -/
def packTiles (l0 : Bool) : Nat → List (List Block) → List (Block × Bool) × Nat × Nat × List Bool
  | _, [] => ([], 0, 0, [])
  | off, t :: ts =>
    let (bs, n, count) := packTile t l0 off
    let (rest, m, z, l2) := packTiles l0 (off + count) ts
    (bs.mapIdx (fun i b => (b, decide (i = 0))) ++ rest, n + m, count - n + z, decide (count ≠ 0) :: l2)

/-- A dense block of PACK's source: one whose two zero-map bits are set and that is not poisoned is not read (R155). -/
def packSource (x : Crag) (p : Packet) (a : Nat) : Except OpErr (Block × Bool) :=
  let h := ledgeWrap a / 64
  if Tab.get falseD x.zmap h && Tab.get falseD x.zmap (h + 1) && !Tab.get falseD x.lpois (h / 2) then
    .ok (zeroBlock false, false)
  else (opRead x p a 128).map fun b => (b, true)

def gmergePackRun (w : Work) (c : Nat) (o : Op) : Except OpErr EngOut := do
  let p := o.pkt
  let x := getCrag w c
  let n := gmTiles p
  if n = 0 then pure { crag := x, out := [], count := 0, cycles := 1 }
  else
    let src ← match opnd (srcA p) with
      | .ledge r => (List.range (64 * n)).mapM fun b => packSource x p (r * 4096 + 128 * b)
      | _ => .ok (o.inA.map fun e => ((entryBytes e, e.poison), true))
    let reads := (src.filter (·.2)).length
    let l0 := bit p 176
    let (bs, data, zs, l2) := packTiles l0 (fld p 144 32) (chunks 64 (src.map (·.1)))
    let x ← if bit p 177 then
        let bytes := natLe ((n + 7) / 8) (bitsToNat l2)
        putBlocks p x (fld p 178 8 * 4096) ((chunks 128 (padTo ((n + 1023) / 1024 * 128) 0 bytes)).map fun b => (b, false))
      else .ok x
    let cycles := match opnd (srcA p) with
      | .ledge _ => n + reads + zs
      | _ => 64 * n + 1
    match opnd (dstOf p) with
    | .ledge r => do
      let x ← putBlocks p x (r * 4096) (bs.map (·.1))
      pure { crag := x, out := [], count := data, cycles := cycles }
    | _ =>
      pure { crag := x, count := data, cycles := cycles
             out := bs.mapIdx fun i b =>
               (dstOf p % 256, Entry.mk (if b.2 then b.1.1.take 16 else b.1.1) (i + 1 = bs.length) b.1.2) }

/-- A tile as 64 dense blocks; L0 blocks are not applied (R156). -/
def denseTile (t : Tile) : List Block :=
  (List.range 64).map fun b => (t.blocks.find? fun e => e.1 = b).elim (zeroBlock t.hp) fun e => (e.2.1.1, e.2.1.2 || t.hp)

def gmergeUnpackRun (w : Work) (c : Nat) (o : Op) : Except OpErr EngOut := do
  let p := o.pkt
  let x := getCrag w c
  let n := gmTiles p
  if n = 0 then pure { crag := x, out := [], count := 0, cycles := 1 }
  else
    let (ts, tail) ← tilesOf x o n
    let (x, out) ← putDst (markTail x tail) p (ts.flatMap denseTile)
    pure { crag := x, out := out, count := n, cycles := max (65 * n) o.inA.length }

/-! ## The 2:4 form (R170, R171, R174) -/

/-- A matrix stored as row images, or transposed: rows of values, and rows of 4-bit entries. -/
def matRows (fmt rows cols : Nat) (bt : Bool) (v : Nat → Nat → Nat) : List (List Byte) :=
  if bt then (List.range cols).map fun j => packRow fmt ((List.range rows).map fun i => v i j)
  else (List.range rows).map fun i => packRow fmt ((List.range cols).map fun j => v i j)

/-- Bytes cut into blocks with one poison for all. -/
def rowBlocks (rows : List (List Byte)) (po : Bool) : List Block := rows.flatMap fun r => (chunks 128 r).map fun b => (b, po)

/-- Slots of one group of four codes: positions and values (R174). -/
def slots24 (v : Nat → Nat) : (Nat × Nat) × (Nat × Nat) :=
  match (List.range 4).filter fun i => v i ≠ 0 with
  | [] => ((0, 0), (1, 0))
  | [i] => ((i, v i), (if i = 0 then 1 else 0, 0))
  | i :: j :: _ => ((i, v i), (j, v j))

/-- GMERGE.PACK24 (R174). -/
def gmergePack24Run (w : Work) (c : Nat) (o : Op) : Except OpErr EngOut := do
  let p := o.pkt
  let x := getCrag w c
  let n := fld p 144 16
  let k := fld p 160 16
  let fmt := fld p 176 4
  let bt := bit p 180
  let rb := rowBytes fmt (if bt then k else n)
  let rows ← operandRows x p (srcA p) (if bt then n else k) rb []
  let po := rows.any Row.anyPois
  let code := fun i j => if bt then (rowAt rows j).elem fmt i else (rowAt rows i).elem fmt j
  let slot := fun q j => slots24 fun i => code (4 * q + i) j
  let vals := matRows fmt (k / 2) n bt fun i j => if i % 2 = 0 then (slot (i / 2) j).1.2 else (slot (i / 2) j).2.2
  let mt4 := matRows 8 (k / 4) n bt fun q j => (slot q j).1.1 + 4 * (slot q j).2.1
  let x ← putBlocks p x (opndLedge (dstOf p)) (rowBlocks vals po)
  let x ← putBlocks p x (fld p 240 8 * 4096) (rowBlocks mt4 po)
  let wd := if fmt = 5 then 8 else fmtBits fmt
  pure { crag := x, out := [], count := k * n, cycles := (k * n * wd + 1023) / 1024 }

/-! ## SMMA -/

def smTmode (p : Packet) : Nat := fld p 248 2

/-- Tiles of a packed A (R143): its dense extent is a whole number of tiles. -/
def smTiles (p : Packet) : Nat := (fabM p * rowBytes (fA (fcwOf p)) (fabK p) + 8191) / 8192

/-- Row images of B's values and metadata in 2:4 form. -/
def valRows (p : Packet) : Nat := if fBt (fcwOf p) then fabN p else fabK p / 2
def valCols (p : Packet) : Nat := if fBt (fcwOf p) then fabK p / 2 else fabN p
def metaRows (p : Packet) : Nat := if fBt (fcwOf p) then fabN p else fabK p / 4
def metaCols (p : Packet) : Nat := if fBt (fcwOf p) then fabK p / 4 else fabN p

def metaExt (p : Packet) : List Ext := [⟨13, fld p 240 8 * 4096, metaRows p * rowBytes 8 (metaCols p)⟩]

/-- The legality of an SMMA packet (R161, R162). -/
def smmaLegal (p : Packet) : Bool :=
  let f := fcwOf p
  let o := opcOf p
  let sparseA := o = 0x28 || o = 0x2A
  let wB := if fB f = 5 then 8 else fmtBits (fB f)
  let common := fld p 251 5 = 0 && fcwLegal p && smTmode p ≠ 3 && !(smTmode p = 2 && schedOf p)
  let aOk := !sparseA || ((fSr f = 0 || fSr f = 4) && fDf f = 1 && !fAt f && fA f ≠ 5 &&
    rowBytes (fA f) (fabK p) ≤ 1024 && fabK p * wB ≤ 8192)
  let bOk := o = 0x28 || (fSr f = 0 && fmtBits (fB f) ≠ 4 && fabK p % 4 = 0)
  let aExt := if sparseA then ledgeExt 0 (srcA p) (smTiles p * 65 * 128)
    else ledgeExt 0 (srcA p) (aRows p * rowBytes (fA f) (aCols p))
  let bExt := if o = 0x28 then ledgeExt 1 (srcB p) (bRows p * rowBytes (fB f) (bCols p))
    else ledgeExt 1 (srcB p) (valRows p * rowBytes (fB f) (valCols p)) ++ metaExt p
  if o = 0x2C then
    common && smTmode p = 0 && fabM p = 0 && fabK p % 4 = 0 && fabN p % 4 = 0 &&
      (fA f ≤ 4 || fA f = 7) && fmtBits (fO f) ≠ 4 && (opnd (srcA p)).isLedge && (opnd (dstOf p)).isLedge &&
      (opnd (srcB p)).isNone && (opnd (srcC p)).isNone &&
      !extClash (ledgeExt 0 (srcA p) (fabK p * rowBytes (fA f) (fabN p)) ++
        ledgeExt 6 (dstOf p) (fabK p / 2 * rowBytes (fO f) (fabN p)) ++
        [⟨13, fld p 240 8 * 4096, fabK p / 4 * rowBytes 8 (fabN p)⟩] ++
        (if bit p 250 then [⟨14, fld p 208 8 * 4096, fabN p / 2 * rowBytes (fO f) (fabK p)⟩,
          ⟨15, fld p 216 8 * 4096, fabN p / 4 * rowBytes 8 (fabK p)⟩] else []))
  else
    (o = 0x28 || o = 0x29 || o = 0x2A) && common && scalesLegal p && !bit p 250 && aOk && bOk &&
      (o ≠ 0x29 || smTmode p = 0) && (o ≠ 0x28 || fld p 240 8 = 0) && fabOperands p && queueOk p sparseA &&
      !extClash (aExt ++ bExt ++ cdExt p)

/-- B in 2:4 form as optional values: a dropped term contributes nothing (R171, R172). -/
def bVal24 (f : W32) (vals mt4 scales : List Row) (k n : Nat) : Option (Acc × Bool) :=
  let q := k / 4
  let e := if fBt f then (rowAt mt4 n).elem 8 q else (rowAt mt4 q).elem 8 n
  let code := fun s => if fBt f then (rowAt vals n).elem (fB f) (2 * q + s) else (rowAt vals (2 * q + s)).elem (fB f) n
  let val := fun s => operandElem (fSr f) (fB f) (intAcc f) (code s) (bScale f scales k n)
  if e / 4 = k % 4 then some (val 1) else if e % 4 = k % 4 then some (val 0) else none

/-- B as an SMMA op takes it: values, NaN mark, poison. -/
def smmaB (x : Crag) (o : Op) : Except OpErr ((Nat → Nat → Option (Acc × Bool)) × Bool) := do
  let p := o.pkt
  let f := fcwOf p
  let sb ← scaleRowsB x p
  if opcOf p = 0x28 then
    let br ← operandRows x p (srcB p) (bRows p) (rowBytes (fB f) (bCols p)) o.inB
    pure (fun k n => some (bVal f br sb k n), br.any Row.anyPois || sb.any Row.anyPois)
  else
    let vr ← operandRows x p (srcB p) (valRows p) (rowBytes (fB f) (valCols p)) o.inB
    let mr ← ledgeRows x p (fld p 240 8 * 4096) (metaRows p) (rowBytes 8 (metaCols p))
    pure (bVal24 f vr mr sb, vr.any Row.anyPois || mr.any Row.anyPois || sb.any Row.anyPois)

def nanOpt (rows cols : Nat) (v : Nat → Nat → Option (Acc × Bool)) : Bool :=
  (List.range rows).any fun i => (List.range cols).any fun j => ((v i j).map (·.2)).getD false

/-- SMMA.W (R172). -/
def smmaWRun (w : Work) (c : Nat) (o : Op) : Except OpErr EngOut := do
  let p := o.pkt
  let f := fcwOf p
  let x := getCrag w c
  if fabEmpty p then pure { crag := x, out := [], count := 0, cycles := 1 }
  else
    let ar ← operandRows x p (srcA p) (aRows p) (rowBytes (fA f) (aCols p)) o.inA
    let sa ← scaleRowsA x p
    let (bv, bp) ← smmaB x o
    let inp : FabIn := {
      a := fun m k => some (aVal f ar sa m k).1
      b := fun k n => (bv k n).map (·.1)
      nan := anyNan (fabM p) (fabK p) (aVal f ar sa) || nanOpt (fabK p) (fabN p) bv
      pois := fun m => bp || aPois p ar sa m }
    let t := fabCycles p (divRate2 (opWidth (fA f) (fB f)))
    fabCompute c o x inp (max t (popCycles o)) t

/-- Blocks of a tile that hold rows below M (R179). -/
def tileExtent (p : Packet) (t : Nat) : Nat := min 64 (fabM p * rowBytes (fA (fcwOf p)) (fabK p) / 128 - 64 * t)

/-- The stored block at global block number g of A: an L1 bit at or beyond the extent stands at b mod Et, the later in bitmap order stands
(Table 5.9); a DENSE tile has no L1 bits and its blocks stand at their places (R149). -/
def aBlock (p : Packet) (ts : List Tile) (g : Nat) : Option (Block × Option Nat) :=
  let t := g / 64
  let et := tileExtent p t
  match ts[t]? with
  | none => none
  | some tl => ((tl.blocks.filter fun e => (if tl.dense then e.1 else e.1 % et) = g % 64).getLast?).map (·.2)

/-- The tile of element k of row m. -/
def elemTile (p : Packet) (m k : Nat) : Nat :=
  (m * rowBytes (fA (fcwOf p)) (fabK p) + k * fmtBits (fA (fcwOf p)) / 8) / 8192

/-- Code of element k of row m, none where the sequence does not hold it: its block is not stored, or every byte that
holds its bits has its L0 bit clear (R164). -/
def aStored (p : Packet) (ts : List Tile) (m k : Nat) : Option Nat :=
  let f := fcwOf p
  let pb := rowBytes (fA f) (fabK p)
  let b := fmtBits (fA f)
  match aBlock p ts (m * (pb / 128) + b * k / 1024) with
  | none => none
  | some (blk, mask) =>
    let off := b * k % 1024
    let seen := match mask with
      | none => true
      | some mk => (List.range ((off % 8 + b + 7) / 8)).any (fun i => decide (bitsN mk (off / 8 + i) 1 = 1))
    if seen = true then some (bitsN (leNat blk.1) off b) else none

/-- Poison of row m: that of any block of a tile that holds bytes of the row (R180). -/
def aRowPois (p : Packet) (ts : List Tile) (m : Nat) : Bool :=
  let pb := rowBytes (fA (fcwOf p)) (fabK p)
  (ts.mapIdx fun t x => (t, x)).any fun e =>
    e.2.pois && decide (m * pb < 8192 * (e.1 + 1)) && decide (8192 * e.1 < (m + 1) * pb)

/-- Whether the GME sends a tile to the sparse path (R165). -/
def tileSparse (p : Packet) (thresh : Nat) (t : Tile) : Bool :=
  match smTmode p with
  | 0 => !(t.dense || decide (thresh < popN t.l1 64))
  | 1 => false
  | _ => true

/-- Tiles that hold rows of a group. -/
def groupTiles (p : Packet) (g : Nat) : List Nat :=
  let pb := rowBytes (fA (fcwOf p)) (fabK p)
  let lo := 32 * g * pb / 8192
  let hi := (min (32 * g + 32) (fabM p) * pb + 8191) / 8192
  (List.range (hi - lo)).map (· + lo)

/-- Lane count of row m when its group runs on the sparse path (R164). -/
def laneCount (p : Packet) (thresh : Nat) (ts : List Tile) (m : Nat) : Nat :=
  ((List.range (fabK p)).filter fun k =>
    let sparse := ((ts[elemTile p m k]?).map (tileSparse p thresh)).getD false
    !sparse || (aStored p ts m k).isSome).length

/-- A row group's path and cost: whether it runs sparse, whether the guard reverted it, u(g) and w(g) (R166, R167). -/
def groupPlan (p : Packet) (thresh : Nat) (ts : List Tile) (g : Nat) : Bool × Bool × Nat × Nat :=
  let f := fcwOf p
  let wd := opWidth (fA f) (fB f)
  let nt := (fabN p + 31) / 32
  let wB := if fB f = 5 then 8 else fmtBits (fB f)
  let s := (4 * fabK p * wB + 1023) / 1024
  let wdn := (if opcOf p = 0x2A then divRate2 wd else divRate wd) (max (fabK p) 32)
  let sp := (groupTiles p g).filter fun t => ((ts[t]?).map (tileSparse p thresh)).getD false
  let u := 8 * sp.length
  let rows := (List.range 32).filterMap fun i => if 32 * g + i < fabM p then some (32 * g + i) else none
  let wsp := divRate wd (rows.foldl (fun a m => max a (laneCount p thresh ts m)) 0)
  if sp = [] then (false, false, 0, wdn)
  else if smTmode p = 0 ∧ nt * max s wdn ≤ u + nt * max s wsp then (false, true, 0, wdn)
  else (true, false, u, wsp)

/-- The first row group a tile appears in. -/
def firstGroup (p : Packet) (t : Nat) : Nat := 8192 * t / rowBytes (fA (fcwOf p)) (fabK p) / 32

/-- Blocks of the sequence that first appear in a group's tiles. -/
def groupTaken (p : Packet) (ts : List Tile) (g : Nat) : Nat :=
  ((ts.mapIdx fun t x => (t, x)).filter fun e => firstGroup p e.1 = g).foldl (fun a e => a + e.2.taken) 0

/-- Cycles in which the fabric performs steps: those of every group over its strips. -/
def smmaSteps (p : Packet) (plans : List (Bool × Bool × Nat × Nat)) : Nat :=
  (plans.map fun g => (fabN p + 31) / 32 * g.2.2.2).sum

/-- The duration of R167; with K = 0 that of K = 32 (R124). -/
def smmaCycles (p : Packet) (ts : List Tile) (plans : List (Bool × Bool × Nat × Nat)) : Nat :=
  let nt := (fabN p + 31) / 32
  let f := fcwOf p
  let wB := if fB f = 5 then 8 else fmtBits (fB f)
  let k := if fabK p = 0 then 32 else fabK p
  let s := (4 * k * wB + 1023) / 1024
  (plans.mapIdx fun g x => (g, x)).foldl (fun t e =>
    t + e.2.2.2.1 + max (nt * max s e.2.2.2.2) (if e.1 + 1 < plans.length then groupTaken p ts (e.1 + 1) else 0))
    (groupTaken p ts 0 + s)

/-- SMMA.A and SMMA.AW (R164 to R169, R173). -/
def smmaARun (w : Work) (c : Nat) (o : Op) : Except OpErr EngOut := do
  let p := o.pkt
  let f := fcwOf p
  let x := getCrag w c
  if fabEmpty p then pure { crag := x, out := [], count := 0, cycles := 1 }
  else
    let thresh := x.ex.spth.toNat
    let (ts, tail) ← tilesOf x o (smTiles p)
    let sa ← scaleRowsA x p
    let (bv, bp) ← smmaB x o
    let plans := (List.range ((fabM p + 31) / 32)).map (groupPlan p thresh ts)
    let elem := fun m k =>
      operandElem (fSr f) (fA f) (intAcc f) ((aStored p ts m k).getD 0) (scaleAt (fMxa f) false sa m k)
    let skipped := fun m k =>
      (plans.getD (m / 32) (false, false, 0, 0)).1 && ((ts[elemTile p m k]?).map (tileSparse p thresh)).getD false &&
        (aStored p ts m k).isNone
    let sparse := (plans.filter (·.1)).length
    let guard := (plans.filter (·.2.1)).length
    let x := markTail x tail
    let x := { x with ex := { x.ex with
      gsparse := bump x.ex.gsparse sparse
      gdense := bump x.ex.gdense (plans.length - sparse)
      gguard := bump x.ex.gguard guard } }
    let inp : FabIn := {
      a := fun m k => if skipped m k then none else some (elem m k).1
      b := fun k n => (bv k n).map (·.1)
      nan := anyNan (fabM p) (fabK p) elem || nanOpt (fabK p) (fabN p) bv
      pois := fun m => bp || aRowPois p ts m || scalePois p sa m }
    fabCompute c o x inp (max (smmaCycles p ts plans) (popCycles o)) (smmaSteps p plans)

/-! ## Pruning (R175 to R178) -/

/-- The six choices of two of four, as 4-bit masks. -/
def pairMasks : List Nat := [3, 5, 6, 9, 10, 12]

/-- The 90 transposable patterns in ascending code (R176). -/
def patterns : List Nat :=
  (pairMasks.flatMap fun d => pairMasks.flatMap fun c => pairMasks.flatMap fun b => pairMasks.filterMap fun a =>
    if (List.range 4).all fun j => decide (bitsN a j 1 + bitsN b j 1 + bitsN c j 1 + bitsN d j 1 = 2) then
      some (a + 16 * b + 256 * c + 4096 * d) else none)

/-- A magnitude on the scale of its format's least place; none stands for +infinity and NaN. -/
def magnitude (fmt code : Nat) : Option Nat :=
  match floatFmt fmt with
  | none => some (toSigned (fmtBits fmt) code).natAbs
  | some f =>
    match f.decode code with
    | .fin _ m e => some (m * 2 ^ (e - f.qmin).toNat)
    | _ => none

/-- The sum of the magnitudes a pattern keeps. -/
def patternSum (mag : Nat → Option Nat) (code : Nat) : Option Nat :=
  (maskList 16 code).foldl (fun a i => match a, mag i with
    | some x, some y => some (x + y)
    | _, _ => none) (some 0)

/-- A sum greater than another; infinite sums are equal. -/
def sumAbove (a b : Option Nat) : Bool :=
  match a, b with
  | none, some _ => true
  | some x, some y => decide (y < x)
  | _, none => false

/-- The pattern kept for a block (R176). -/
def prunePattern (mag : Nat → Option Nat) : Nat :=
  (patterns.foldl (fun best c =>
    match best with
    | none => some (c, patternSum mag c)
    | some (_, s) => if sumAbove (patternSum mag c) s then some (c, patternSum mag c) else best)
    (none : Option (Nat × Option Nat))).elim 0 (·.1)

/-- Positions kept of four, in position order. -/
def keptTwo (b : Nat → Bool) : Nat × Nat :=
  match (List.range 4).filter b with
  | i :: j :: _ => (i, j)
  | _ => (0, 1)

/-- SMMA.PRUNE (R175 to R178, R180). -/
def smmaPruneRun (w : Work) (c : Nat) (o : Op) : Except OpErr EngOut := do
  let p := o.pkt
  let f := fcwOf p
  let x := getCrag w c
  let n := fabN p
  let k := fabK p
  let rows ← operandRows x p (srcA p) k (rowBytes (fA f) n) []
  let po := rows.any Row.anyPois
  let code := fun i j => (rowAt rows i).elem (fA f) j
  let pats := (List.range (k / 4)).map fun q => (List.range (n / 4)).map fun h =>
    prunePattern fun i => magnitude (fA f) (code (4 * q + i / 4) (4 * h + i % 4))
  let kept := fun i j => decide (bitsN ((pats.getD (i / 4) []).getD (j / 4) 0) (4 * (i % 4) + j % 4) 1 = 1)
  let full := fun i j => convF (fO f) (rndOf c o (i * n + j)) (elemVal (fA f) (code i j))
  let conv := fun i j => (full i j).1
  let fl := (List.range k).foldl (fun g i => (List.range n).foldl (fun g j =>
    let nan := if fIsNan (elemVal (fA f) (code i j)) then flNan else flNone
    flOr (flOr g nan) (if kept i j then (full i j).2 else flNone)) g) flNone
  let slot := fun q j => keptTwo fun i => kept (4 * q + i) j
  let vals := matRows (fO f) (k / 2) n false fun r j =>
    let s := slot (r / 2) j
    conv (4 * (r / 2) + if r % 2 = 0 then s.1 else s.2) j
  let mt4 := matRows 8 (k / 4) n false fun q j => (slot q j).1 + 4 * (slot q j).2
  let x ← putBlocks p x (opndLedge (dstOf p)) (rowBlocks vals po)
  let x ← putBlocks p x (fld p 240 8 * 4096) (rowBlocks mt4 po)
  let x ← if bit p 250 then do
      let tslot := fun h i => keptTwo fun j => kept i (4 * h + j)
      let tv := matRows (fO f) (n / 2) k false fun r i =>
        let s := tslot (r / 2) i
        conv i (4 * (r / 2) + if r % 2 = 0 then s.1 else s.2)
      let tm := matRows 8 (n / 4) k false fun h i => (tslot h i).1 + 4 * (tslot h i).2
      let x ← putBlocks p x (fld p 208 8 * 4096) (rowBlocks tv po)
      putBlocks p x (fld p 216 8 * 4096) (rowBlocks tm po)
    else .ok x
  pure { crag := x, out := [], count := k * n / 2, cycles := (k * n + 63) / 64 + 16, ffl := flFabric fl, vfl := flFabricToV fl }

end Sys2Proof.Machine
end

