-- ==== Sys2Proof/Machine/Vector.lean ====
section
/-! DEFINITION. The Vector Engine (R182 to R206): chains of VOP, VSCAN and VRED walked strip by strip (R193), their functions,
flags and poison, and VOP.FLAGS. -/

namespace Sys2Proof.Machine

/-! ## Arguments (Table 6.2) -/

def vRows (p : Packet) : Nat := fld p 128 16
def vCols (p : Packet) : Nat := fld p 144 16
def vFunc (p : Packet) : Nat := fld p 160 6
def vFmt (p : Packet) : Nat := fld p 166 4
def vOfmt (p : Packet) : Nat := fld p 170 4
/-- Broadcast mode of operand k: 0 A, 1 B, 2 C (Table 6.3). -/
def vMode (p : Packet) (k : Nat) : Nat := fld p (174 + 2 * k) 2
def vRnd (p : Packet) : Bool := bit p 180
def vSat (p : Packet) : Bool := bit p 181
def vJoin (p : Packet) : Bool := bit p 182
def vLinks (p : Packet) : Nat := fld p 183 3
def vAxis (p : Packet) : Nat := fld p 186 2
def vExcl (p : Packet) : Bool := bit p 188
def vSeg (p : Packet) : Bool := bit p 189
def vTot (p : Packet) : Bool := bit p 190
def vTreg (p : Packet) : Nat := fld p 191 5

def isVop (p : Packet) : Bool := opcOf p = 0x40
def isVscan (p : Packet) : Bool := opcOf p = 0x50
def isVred (p : Packet) : Bool := opcOf p = 0x58

/-- Source operand field k. -/
def vSrc (p : Packet) (k : Nat) : Nat := if k = 0 then srcA p else if k = 1 then srcB p else srcC p

/-- Rows and columns of a source under its mode (Table 6.3). -/
def vShape (p : Packet) (k : Nat) : Nat × Nat :=
  match vMode p k with
  | 0 => (vRows p, vCols p)
  | 1 => (1, vCols p)
  | 2 => (vRows p, 1)
  | _ => (1, 1)

/-- Rows and columns of the destination (R202). -/
def vDstShape (p : Packet) : Nat × Nat :=
  if isVred p then (1, match vAxis p with
    | 0 => 1
    | 1 => vRows p
    | _ => vCols p)
  else (vRows p, vCols p)

/-! ## Legality (R186, R187, R190) -/

/-- Sources a VOP function uses and the formats it takes: 1 floating, 2 integer, 3 both, 4 any of the ten
(Table 6.4). -/
def vopRow (func : Nat) : Option (List Nat × Nat) :=
  if func ≤ 2 ∨ func = 4 ∨ func = 5 ∨ (0x18 ≤ func ∧ func ≤ 0x1B) then some ([0, 1], 3)
  else if func = 3 then some ([0, 1, 2], 1)
  else if 6 ≤ func ∧ func ≤ 8 ∨ func = 0x0A then some ([0], 3)
  else if func = 9 then some ([0, 1, 2], 3)
  else if func = 0x0B then some ([0], 4)
  else if func = 0x0C then some ([], 2)
  else if func = 0x10 then some ([0, 1], 1)
  else if 0x11 ≤ func ∧ func ≤ 0x15 then some ([0], 1)
  else if func = 0x20 ∨ func = 0x21 ∨ func = 0x22 ∨ (0x24 ≤ func ∧ func ≤ 0x26) then some ([0, 1], 2)
  else if func = 0x23 ∨ func = 0x27 then some ([0], 2)
  else none

/-- Formats a scan or reduction function takes (Table 6.5). -/
def vfoldFmt (scan : Bool) (func : Nat) : Option Nat :=
  if func = 0 ∨ func = 4 ∨ func = 5 then some 3
  else if func = 0x20 ∨ func = 0x21 then some 2
  else if scan then none
  else if func = 0x27 then some 2
  else if func = 0x28 then some 3
  else none

/-- Whether a function takes format fmt: FP6, FP4 and INT4 only where any of the ten may stand. -/
def vfmtOk (kinds fmt : Nat) : Bool :=
  if kinds = 4 then fmt ≤ 9
  else fmt ≤ 9 && fmt ≠ 5 && fmt ≠ 6 && fmt ≠ 8 && decide (bitsN kinds (if fmtIsInt fmt then 1 else 0) 1 = 1)

def vfuncOk (p : Packet) : Bool :=
  let k := if isVop p then (vopRow (vFunc p)).map (·.2) else vfoldFmt (isVscan p) (vFunc p)
  match k with
  | some kinds => vfmtOk kinds (vFmt p)
  | none => false

/-- Which sources must be present, and which may. -/
def vuses (p : Packet) (k : Nat) : Bool :=
  if isVop p then ((vopRow (vFunc p)).map (·.1)).getD [] |>.contains k
  else if isVscan p then k = 0 || (k = 1 && vSeg p) || (k = 2 && !(opnd (srcC p)).isNone)
  else k = 0

/-- Operand kind and broadcast mode of source k (R188, R189). -/
def vsrcOk (p : Packet) (k : Nat) : Bool :=
  let m := vMode p k
  match opnd (vSrc p k) with
  | .none => !vuses p k && (m = 0 || m = 3)
  | .queue q => vuses p k && q < 12 && m = 0
  | .ledge _ => vuses p k
  | .vreg _ => vuses p k && (m = 0 || m = 3)
  | .bad => false

def vdstOk (p : Packet) : Bool :=
  let narrow := fmtBits (vOfmt p) < 8
  match opnd (dstOf p) with
  | .queue q => 12 ≤ q && (isVop p || !narrow)
  | .ledge _ => isVop p || !narrow
  | .vreg _ => !narrow && !(isVred p && 64 < (vDstShape p).2)
  | _ => false

/-- Ledge extents of an operand. -/
def vExt (name field fmt : Nat) (shape : Nat × Nat) : List Ext :=
  ledgeExt name field (shape.1 * rowBytes fmt shape.2)

/-- Operands that overlap in the Ledge: a source in mode 0 may coincide exactly with the destination. -/
def vclash (p : Packet) : Bool :=
  let d := vExt 5 (dstOf p) (vOfmt p) (vDstShape p)
  let src := (List.range 3).map fun k => (vExt k (vSrc p k) (vFmt p) (vShape p k), vMode p k)
  let pair := fun (a b : List Ext) => a.any fun x => b.any fun y => extHit x y
  let same := fun (a b : List Ext) => a.any fun x => b.any fun y => decide (x.base = y.base ∧ x.len = y.len)
  (src.any fun s => pair s.1 d && !(s.2 = 0 && same s.1 d)) ||
    (List.range 3).any fun i => (List.range i).any fun j =>
      pair (src.getD i ([], 0)).1 (src.getD j ([], 0)).1

/-- VOP, VSCAN or VRED taken alone. -/
def vecLegal (p : Packet) : Bool :=
  (isVop p || isVscan p || isVred p) && fld p 196 4 = 0 && fld p 216 40 = 0 &&
    (if isVop p then fld p 186 10 = 0 else !bit p 181 && vAxis p ≠ 3) &&
    (!isVscan p || vAxis p ≤ 1) && (!isVred p || fld p 188 8 = 0) &&
    vfuncOk p && vOfmt p ≤ 9 && (List.range 3).all (vsrcOk p) && vdstOk p &&
    (!isVscan p || (opnd (srcC p)).isNone || vMode p 2 = (if vAxis p = 0 then 3 else 2)) &&
    (!vRnd p || (!fmtIsInt (vOfmt p) && vOfmt p ≠ 0)) && !vclash p

/-- VOP.FLAGS takes CLR and no operand. -/
def vflagsLegal (p : Packet) : Bool :=
  opcOf p = 0x4F && fld p 135 121 = 0 && srcA p = 0 && srcB p = 0 && srcC p = 0 && dstOf p = 0

/-! ## Values -/

/-- A source element in the computing format (R196). -/
def vwiden (fmt code : Nat) : Acc :=
  if fmtIsInt fmt then .i (toSigned (fmtBits fmt) code) else .f (elemVal fmt code)

def accNan : Acc → Bool
  | .f v => fIsNan v
  | .i _ => false

def accF : Acc → FVal
  | .f v => v
  | .i v => ofIntF v

def accI : Acc → Int
  | .i v => v
  | .f _ => 0

/-- An exact integer brought into INT32: wrapped or saturated, with INT_SAT when it lay outside (R198). -/
def intRes (sat : Bool) (v : Int) : Acc × Fl :=
  if i32min ≤ v ∧ v ≤ i32max then (.i v, flNone)
  else (.i (if sat then (if v < 0 then i32min else i32max) else toSigned 32 (ofInt 32 v)), flSat)

/-- A bitwise result. -/
def bitRes (v : Nat) : Acc × Fl := (.i (toSigned 32 v), flNone)

def boolRes (b : Bool) : Acc × Fl := (.i (if b then 1 else 0), flNone)

/-- An FP32 result. -/
def fltRes (r : FVal × Fl) : Acc × Fl := (.f r.1, r.2)

/-- A VOP function over values in the computing format; cc is the code of c and i the element's index (Table 6.4). -/
def vopF (func : Nat) (a b c : FVal) (cc : Nat) : Acc × Fl :=
  match func with
  | 0x00 => fltRes (fadd a b)
  | 0x01 => fltRes (fsub a b)
  | 0x02 => fltRes (fmul a b)
  | 0x03 => fltRes (ffma a b c)
  | 0x04 => (.f (fmin a b), flNone)
  | 0x05 => (.f (fmax a b), flNone)
  | 0x06 => (.f (fabs a), flNone)
  | 0x07 => (.f (fneg a), flNone)
  | 0x08 => (.f (fmax a fzero), flNone)
  | 0x09 => (.f (if cc ≠ 0 then a else b), flNone)
  | 0x10 => fltRes (fdiv a b)
  | 0x11 => fltRes (fdiv fone a)
  | 0x12 => fltRes (fsqrt a)
  | 0x13 => fltRes (frsqrt a)
  | 0x14 => fltRes (fexp2 a)
  | 0x15 => fltRes (flog2 a)
  | 0x18 => boolRes (feq a b)
  | 0x19 => boolRes (!feq a b)
  | 0x1A => boolRes (!fIsNan a && !fIsNan b && flt a b)
  | 0x1B => boolRes (!fIsNan a && !fIsNan b && !flt b a)
  | _ => (.f a, flNone)

def vopI (func : Nat) (sat : Bool) (a b : Int) (cc i : Nat) : Acc × Fl :=
  let ua := ofInt 32 a
  let ub := ofInt 32 b
  let n := ub % 32
  match func with
  | 0x00 => intRes sat (a + b)
  | 0x01 => intRes sat (a - b)
  | 0x02 => intRes sat (a * b)
  | 0x04 => (.i (if b < a then b else a), flNone)
  | 0x05 => (.i (if a < b then b else a), flNone)
  | 0x06 => intRes sat a.natAbs
  | 0x07 => intRes sat (-a)
  | 0x08 => (.i (if a < 0 then 0 else a), flNone)
  | 0x09 => (.i (if cc ≠ 0 then a else b), flNone)
  | 0x0C => bitRes i
  | 0x18 => boolRes (a = b)
  | 0x19 => boolRes (a ≠ b)
  | 0x1A => boolRes (a < b)
  | 0x1B => boolRes (a ≤ b)
  | 0x20 => bitRes (ua &&& ub)
  | 0x21 => bitRes (ua ||| ub)
  | 0x22 => bitRes (ua ^^^ ub)
  | 0x23 => bitRes (2 ^ 32 - 1 - ua)
  | 0x24 => bitRes (ua * 2 ^ n)
  | 0x25 => bitRes (ua / 2 ^ n)
  | 0x26 => (.i (a / ((2 ^ n : Nat) : Int)), flNone)
  | 0x27 => (.i (popN ua 32), flNone)
  | _ => (.i a, flNone)

/-- The combining operation of a scan or reduction (Table 6.5). -/
def vplus (func : Nat) : Acc → Acc → Acc × Fl
  | .f a, .f b => if func = 4 then (.f (fmin a b), flNone) else if func = 5 then (.f (fmax a b), flNone) else fltRes (fadd a b)
  | .i a, .i b =>
    match func with
    | 4 => (.i (if b < a then b else a), flNone)
    | 5 => (.i (if a < b then b else a), flNone)
    | 0x20 => bitRes (ofInt 32 a &&& ofInt 32 b)
    | 0x21 => bitRes (ofInt 32 a ||| ofInt 32 b)
    | _ => intRes false (a + b)
  | a, _ => (a, flNone)

/-- Whether a fold computes in INT32. -/
def vfoldInt (p : Packet) : Bool := fmtIsInt (vFmt p) || vFunc p = 0x27 || vFunc p = 0x28

/-- Its identity (Table 6.5). -/
def vident (p : Packet) : Acc :=
  if vfoldInt p then
    .i (match vFunc p with
      | 4 => i32max
      | 5 => i32min
      | 0x20 => -1
      | _ => 0)
  else
    .f (match vFunc p with
      | 4 => .inf false
      | 5 => .inf true
      | _ => .fin true 0 0)

/-- A computed value in the output format. Saturation into an integer format is INT_SAT here, not OVERFLOW (R204; log
entry 25). -/
def vconv (fmt : Nat) (r : Rnd) (v : Acc) : Nat × Fl :=
  let (c, fl) := accConv fmt r v
  (c, if fmtIsInt fmt then { fl with ovf := false } else { fl with sat := false })

/-! ## Running a chain -/

/-- A running value of a fold, from and to its code. -/
def vacc (p : Packet) (v : W32) : Acc := if vfoldInt p then .i (toSigned 32 v.toNat) else .f (elemVal 0 v.toNat)

def vcode : Acc → W32
  | .f v => code32 v
  | .i v => BitVec.ofNat 32 (ofInt 32 v)

/-- Sets lane flags and the flags of the same names (R204). -/
def stickLane (x : Crag) (j : Nat) (fl : Fl) : Crag :=
  let f := flVector fl
  if f = 0 then x
  else { x with ex := { x.ex with
    vflags := x.ex.vflags ||| f
    vlanef := (List.range 7).foldl (fun t k =>
      if f.getLsbD k then Tab.set (bvD 64) t k (setBit (Tab.get (bvD 64) t k) j true) else t) x.ex.vlanef } }

/-- Code and poison of the element that source k supplies for lane j of a strip, whose operands from the Ledge and from queues are given as
rows (Table 6.3). -/
def velem (x : Crag) (p : Packet) (src : List Row) (k j : Nat) : Nat × Bool :=
  let fmt := vFmt p
  match opnd (vSrc p k) with
  | .vreg v =>
    let i := 64 * v + (if vMode p k = 3 then 0 else j)
    (fld (Tab.get (bvD 32) x.vregs i) 0 (fmtBits fmt), Tab.get falseD x.vpois i)
  | .none => (0, false)
  | _ =>
    let row := rowAt src k
    let i := if vMode p k ≤ 1 then j else 0
    (row.elem fmt i, row.elemPois fmt i)

/-- NAN_IN of a source element. -/
def nanFl (fmt code : Nat) : Fl := if accNan (vwiden fmt code) then flNan else flNone

/-- Writes a register lane. -/
def setLane (x : Crag) (v j code : Nat) (po : Bool) : Crag :=
  { x with vregs := Tab.set (bvD 32) x.vregs (64 * v + j) (BitVec.ofNat 32 code)
           vpois := Tab.set falseD x.vpois (64 * v + j) po }

/-- Result i of a strip or of a reduction goes to the destination register when it is one (R188, R202). -/
def toReg (x : Crag) (p : Packet) (i code : Nat) (po : Bool) : Crag :=
  match opnd (dstOf p) with
  | .vreg v => setLane x v i code po
  | _ => x

/-- A lane's result: its flags, and its register lane. -/
def vput (x : Crag) (p : Packet) (j code : Nat) (po : Bool) (fl : Fl) : Crag := toReg (stickLane x j fl) p j code po

/-- The rounding of output element i (R196). -/
def vrnd (c : Nat) (o : Op) (p : Packet) (i : Nat) : Rnd :=
  if vRnd p then .sto (rndWord o.seed c (fld p 200 16) o.epoch i) else .rne

/-- What a member's strip leaves: the Crag, the member, and its results with their poison. -/
abbrev VOut := Crag × VMem × List (Nat × Bool)

/-- One strip of a VOP: n lanes from tensor element i0. -/
def vopStrip (rnd : Nat → Rnd) (x : Crag) (p : Packet) (src : List Row) (m : VMem) (i0 n : Nat) : VOut :=
  let used := ((vopRow (vFunc p)).map (·.1)).getD []
  let val := fun (e : Nat × Bool) => vwiden (vFmt p) e.1
  (List.range n).foldl (fun acc j =>
    let (y, m, outs) := acc
    let a := velem x p src 0 j
    let b := velem x p src 1 j
    let d := velem x p src 2 j
    let (v, f1) := if fmtIsInt (vFmt p) then vopI (vFunc p) (vSat p) (accI (val a)) (accI (val b)) d.1 (i0 + j)
      else vopF (vFunc p) (accF (val a)) (accF (val b)) (accF (val d)) d.1
    let es := used.map fun k => if k = 0 then a else if k = 1 then b else d
    let nf := es.foldl (fun f e => flOr f (nanFl (vFmt p) e.1)) flNone
    let (code, f2) := vconv (vOfmt p) (rnd (i0 + j)) v
    let po := es.any (·.2)
    (vput y p j code po (flOr nf (flOr f1 f2)), m, outs ++ [(code, po)])) (x, m, [])

/-- One level of the scan of R200: values, heads and flags of the active lanes. -/
def scanLevel (func d : Nat) (ys : List (Acc × Bool × Fl)) : List (Acc × Bool × Fl) :=
  ys.mapIdx fun j e =>
    if j < d then e
    else
      match ys[j - d]? with
      | none => e
      | some g =>
        if e.2.1 then e
        else
          let (v, fl) := vplus func g.1 e.1
          (v, g.2.1, flOr e.2.2 fl)

/-- The start value of a scan: C, or the identity (R199). -/
def scanStart (x : Crag) (p : Packet) (src : List Row) : Acc × Bool :=
  if (opnd (srcC p)).isNone then (vident p, false)
  else let e := velem x p src 2 0; (vwiden (vFmt p) e.1, e.2)

/-- Whether a scan starts at a strip (R199, R200). -/
def scanBegins (p : Packet) (r s : Nat) : Bool := s = 0 && (vAxis p = 1 || r = 0)

/-- One strip of a VSCAN (R200, R206). -/
def vscanStrip (rnd : Nat → Rnd) (x : Crag) (p : Packet) (src : List Row) (m : VMem) (start : Bool) (i0 n : Nat) : VOut :=
  let s := if start then scanStart x p src else (vacc p m.carry, m.rp)
  let m := { m with rp := s.2 }
  let as := (List.range n).map fun j => velem x p src 0 j
  let bs := (List.range n).map fun j => if vSeg p then velem x p src 1 j else (0, false)
  let y0 := as.mapIdx fun j a =>
    (vwiden (vFmt p) a.1, decide ((bs.getD j (0, false)).1 ≠ 0),
      flOr (nanFl (vFmt p) a.1) (nanFl (vFmt p) (bs.getD j (0, false)).1))
  let ys := (List.range 6).foldl (fun ys l => scanLevel (vFunc p) (2 ^ l) ys) y0
  let incl := ys.map fun y =>
    if y.2.1 then (y.1, y.2.2)
    else let (v, fl) := vplus (vFunc p) s.1 y.1; (v, flOr y.2.2 fl)
  let step := fun (acc : VOut) (j : Nat) =>
    let (y, q, outs) := acc
    let head := decide ((bs.getD j (0, false)).1 ≠ 0)
    let hp := (bs.getD j (0, false)).2
    let rp := (q.rp && !head) || (as.getD j (0, false)).2 || hp
    let iv := incl.getD j (vident p, flNone)
    let v := if !vExcl p then iv.1 else if head then vident p else if j = 0 then s.1
      else (incl.getD (j - 1) (vident p, flNone)).1
    let (code, fl) := vconv (vOfmt p) (rnd (i0 + j)) v
    (vput y p j code rp (flOr iv.2 fl), { q with rp := rp, heads := q.heads + b2n head, hp := q.hp || hp }, outs ++ [(code, rp)])
  let x := if start && accNan s.1 then stickLane x 0 flNan else x
  let (y, q, outs) := (List.range n).foldl step (x, m, [])
  (y, { q with carry := vcode (incl.getD (n - 1) (s.1, flNone)).1 }, outs)

/-- The element a reduction folds; POPC counts the bits of the element itself (Table 6.5). -/
def vredElem (p : Packet) (code : Nat) : Acc :=
  let v := vwiden (vFmt p) code
  if vFunc p = 0x27 then .i (popN code (fmtBits (vFmt p)))
  else if vFunc p = 0x28 then .i (if code ≠ 0 then 1 else 0)
  else v

/-- One level of the tree at the end of the lanes: adjacent pairs, each kept at its lower lane (log entry 26). -/
def redLevel (func : Nat) : List (Nat × Acc) → List (Nat × Acc) × List (Nat × Fl)
  | a :: b :: rest =>
    let (v, fl) := vplus func a.2 b.2
    let r := redLevel func rest
    ((a.1, v) :: r.1, (a.1, fl) :: r.2)
  | l => (l, [])

/-- The six levels. -/
def redTree (func : Nat) : Nat → List (Nat × Acc) → List (Nat × Acc) × List (Nat × Fl)
  | 0, l => (l, [])
  | n + 1, l =>
    let (l1, f1) := redLevel func l
    let (l2, f2) := redTree func n l1
    (l2, f1 ++ f2)

/-- A member as its chain starts (R199, R202). -/
def vmemNew (p : Packet) : VMem :=
  { carry := vcode (vident p), rp := false, heads := 0, hp := false,
    lanes := List.replicate (if !isVred p then 0 else if vAxis p = 2 then vCols p else 64) (vcode (vident p), false),
    nout := 0, nblk := 0, pend := [], pendPois := false }

/-- A result of a reduction. -/
def redOut (rnd : Nat → Rnd) (p : Packet) (acc : VOut) (lane : Nat) (v : Acc) (po : Bool) : VOut :=
  let (x, m, outs) := acc
  let (code, fl) := vconv (vOfmt p) (rnd m.nout) v
  (toReg (stickLane x lane fl) p m.nout code po, { m with nout := m.nout + 1 }, outs ++ [(code, po)])

/-- Folds the lanes by the tree and starts again (AXIS 0 and 1). -/
def redFinish (rnd : Nat → Rnd) (p : Packet) (acc : VOut) : VOut :=
  let (x, m, outs) := acc
  let (l, fls) := redTree (vFunc p) 6 (m.lanes.mapIdx fun j e => (j, vacc p e.1))
  let x := fls.foldl (fun x f => stickLane x f.1 f.2) x
  redOut rnd p (x, { m with lanes := (vmemNew p).lanes }, outs) 0 ((l.map (·.2)).headD (vident p)) (m.lanes.any (·.2))

/-- The lanes of a register that a reduction has no result for are written with zero (R202). -/
def redRest (p : Packet) (acc : VOut) : VOut :=
  let (x, m, outs) := acc
  ((List.range (64 - m.nout)).foldl (fun x j => toReg x p (m.nout + j) 0 false) x, m, outs)

/-- One strip of a VRED (R202): row r, first column c0, n lanes. -/
def vredStrip (rnd : Nat → Rnd) (x : Crag) (p : Packet) (src : List Row) (m : VMem) (r c0 n : Nat) : VOut :=
  let (y, m) := (List.range n).foldl (fun acc j =>
    let (y, m) := acc
    let e := velem x p src 0 j
    let k := if vAxis p = 2 then c0 + j else j
    let old := m.lanes.getD k (vcode (vident p), false)
    let (v, fl) := vplus (vFunc p) (vacc p old.1) (vredElem p e.1)
    (stickLane y j (flOr (nanFl (vFmt p) e.1) fl), { m with lanes := setAt m.lanes k (vcode v, old.2 || e.2) })) (x, m)
  let lastStrip := vCols p ≤ c0 + n
  let lastRow := vRows p ≤ r + 1
  let out := if vAxis p = 2 then
      if !lastRow then (y, m, [])
      else (List.range n).foldl (fun acc j =>
        let e := m.lanes.getD (c0 + j) (vcode (vident p), false)
        redOut rnd p acc j (vacc p e.1) e.2) (y, m, [])
    else if lastStrip && (vAxis p = 1 || lastRow) then redFinish rnd p (y, m, [])
    else (y, m, [])
  if lastStrip && lastRow then redRest p out else out

/-! ## What a strip reads and writes -/

/-- Lanes of strip s. -/
def stripLen (p : Packet) (s : Nat) : Nat := min 64 (vCols p - 64 * s)

/-- Strips of a row. -/
def strips (p : Packet) : Nat := (vCols p + 63) / 64

/-- Whether strip s is the last of its row. -/
def lastStripOf (p : Packet) (s : Nat) : Bool := strips p ≤ s + 1

/-- The entry of a row that the first element of strip s lies in, of a queue operand (R189: mode 0). -/
def firstEnt (p : Packet) (s : Nat) : Nat := 64 * s * fmtBits (vFmt p) / 1024

/-- Entries that a queue operand supplies for strip s: those its elements lie in, and with the last strip the rest of the row. -/
def stripEnts (p : Packet) (s : Nat) : Nat :=
  (if lastStripOf p s then rowBytes (vFmt p) (vCols p) / 128 else (64 * (s + 1) * fmtBits (vFmt p) + 1023) / 1024) - firstEnt p s

/-- Source k of a strip as a row: of row r and strip s, or the one element of modes 2 and 3 (Table 6.3). -/
def stripSrc (x : Crag) (p : Packet) (k r s : Nat) (es : List Entry) : Except OpErr Row :=
  let b := fmtBits (vFmt p)
  let rb := rowBytes (vFmt p) (vShape p k).2
  let (at_, n) := match vMode p k with
    | 0 => (r * rb + 8 * s * b, stripLen p s)
    | 1 => (8 * s * b, stripLen p s)
    | 2 => (r * rb, 1)
    | _ => (0, 1)
  match opnd (vSrc p k) with
  | .ledge g => (ledgeRows x p (g * 4096 + at_) 1 ((n * b + 7) / 8)).map fun l => rowAt l 0
  | .queue _ =>
    let off := 8 * s * b % 128
    .ok ⟨leNat ((es.flatMap entryBytes).drop off), off, es.map (·.poison)⟩
  | _ => .ok rowNone

/-- The sources that a strip reads: a scan reads C only where it starts (R199). -/
def stripReads (p : Packet) (r s k : Nat) : Bool := !(isVscan p && k = 2 && !scanBegins p r s)

/-- Results of a strip go into the row of results: to the Ledge and to a queue block by block, each as soon as it is full, and the rest of
the row with its last strip (R188, R206; log entry 43). -/
def vEmit (x : Crag) (p : Packet) (m : VMem) (es : List (Nat × Bool)) (rowEnd opEnd : Bool) :
    Except OpErr (Crag × VMem × List (Nat × Entry)) :=
  let b := fmtBits (vOfmt p)
  let at0 := 8 * m.pend.length
  let bs := m.pend ++ natLe ((es.length * b + 7) / 8) (packBits b (es.map (·.1)))
  let rowBlks := rowBytes (vOfmt p) (vDstShape p).2 / 128
  let bs := if rowEnd then padTo (128 * (rowBlks - m.nblk % max rowBlks 1)) 0 bs else bs
  let marks := es.mapIdx fun i e => ((at0 + b * i) / 1024, (at0 + b * i + b - 1) / 1024, e.2)
  let pois := fun k => (k = 0 && m.pendPois) || marks.any fun e => e.2.2 && decide (e.1 ≤ k) && decide (k ≤ e.2.1)
  let n := bs.length / 128
  let blks := (chunks 128 (bs.take (128 * n))).mapIdx fun k l => (l, pois k)
  let m' := { m with pend := bs.drop (128 * n), pendPois := pois n, nblk := m.nblk + n }
  match opnd (dstOf p) with
  | .ledge r => (putBlocks p x (r * 4096 + 128 * m.nblk) blks).map fun y => (y, m', [])
  | .queue q => .ok (x, m', (blockEntries blks).map fun e => (q, { e with last := e.last && opEnd }))
  | _ => .ok (x, { m' with pend := [], pendPois := false }, [])

/-- The next member of a chain takes its part of the strip (R193). -/
def vecStrip (c : Nat) (x : Crag) (o : Op) : Except OpErr (Crag × Op) := do
  let v := o.vec
  let p := o.packets.getD v.mem 0
  let m := v.mems.getD v.mem (vmemNew p)
  let src ← (List.range 3).mapM fun k =>
    if stripReads p v.row v.strip k then
      stripSrc x p k v.row v.strip (Tab.get (fun _ => []) o.inV (3 * v.mem + k))
    else .ok rowNone
  let n := stripLen p v.strip
  let i0 := v.row * vCols p + 64 * v.strip
  let rnd := vrnd c o p
  let (x, m, outs) := if isVop p then vopStrip rnd x p src m i0 n
    else if isVscan p then vscanStrip rnd x p src m (scanBegins p v.row v.strip) i0 n
    else vredStrip rnd x p src m v.row (64 * v.strip) n
  let rowEnd := lastStripOf p v.strip
  let opEnd := rowEnd && vRows p ≤ v.row + 1
  let (x, m, es) ← vEmit x p m outs (if isVred p then opEnd else rowEnd) opEnd
  let keep := if rowEnd then stripEnts p v.strip else firstEnt p (v.strip + 1) - firstEnt p v.strip
  let inV := (List.range 3).foldl (fun t k =>
    Tab.set (fun _ => []) t (3 * v.mem + k) ((Tab.get (fun _ => []) t (3 * v.mem + k)).drop keep)) o.inV
  let next := if v.mem + 1 < o.packets.length then { v with mem := v.mem + 1 }
    else if !rowEnd then { v with mem := 0, strip := v.strip + 1 }
    else { v with mem := 0, strip := 0, row := v.row + 1 }
  pure (x, { o with outQ := es, inV := inV, vec := { next with mems := setAt v.mems v.mem m } })

/-- Whether a chain has walked its tensor (R191). -/
def vecOver (o : Op) : Bool := vRows o.pkt = 0 || vCols o.pkt = 0 || vRows o.pkt ≤ o.vec.row

/-- The totals of a VSCAN, written when every strip has run (R201). -/
def vecTotals (x : Crag) (p : Packet) (m : VMem) : Crag :=
  if isVscan p && vTot p then
    let x := (List.range 64).foldl (fun x j => setLane x (vTreg p) j 0 false) x
    setLane (setLane x (vTreg p) 0 m.carry.toNat m.rp) (vTreg p) 1 m.heads m.hp
  else x

/-- Table in R195: cycles of one member per strip. -/
def vcost (p : Packet) : Nat :=
  if isVop p && 0x10 ≤ vFunc p && vFunc p ≤ 0x15 then 4
  else if isVscan p && vFunc p = 0 && !fmtIsInt (vFmt p) then 2
  else 1

/-- Ledge bytes of one full strip of a member (R195). -/
def vbytes (p : Packet) : Nat :=
  ((List.range 3).map fun k =>
    if (opnd (vSrc p k)).isLedge && vMode p k ≤ 1 then 8 * fmtBits (vFmt p) else 0).sum +
    (if (opnd (dstOf p)).isLedge && !isVred p then 8 * fmtBits (vOfmt p) else 0)

/-- Entries per strip of a member's widest queue operand. -/
def ventries (p : Packet) : Nat :=
  let e := fun b => (8 * b + 127) / 128
  max (if (List.range 3).any fun k => (opnd (vSrc p k)).isPop true then e (fmtBits (vFmt p)) else 0)
    (if (opnd (dstOf p)).isPush true && !isVred p then e (fmtBits (vOfmt p)) else 0)

/-- The duration of a chain (R195). -/
def chainCycles (ps : List Packet) : Nat :=
  match ps with
  | [] => 0
  | h :: _ =>
    let ns := vRows h * ((vCols h + 63) / 64)
    let p := max ((ps.map vcost).sum) (max (((ps.map vbytes).sum + 1023) / 1024) ((ps.map ventries).foldl max 0))
    ns * p + 8 + (if ps.any isVscan then 4 else 0) + (if ps.any (fun q => isVred q && vAxis q ≤ 1) then 6 else 0)

/-- A chain has walked its tensor (R191, R195, R201). -/
def vecEnd (x : Crag) (o : Op) : Crag × Op :=
  let h := o.pkt
  let empty := vRows h = 0 ∨ vCols h = 0
  let t := if empty then 1 else chainCycles o.packets
  let x := if empty then x else (o.packets.zip o.vec.mems).foldl (fun x e => vecTotals x e.1 e.2) x
  ({ x with ex := { x.ex with vbusy := bump x.ex.vbusy t } },
   { o with stage := .done, count := vRows h * vCols h, cycles := o.cycles + t })

/-- VOP.FLAGS clears each flag whose CLR bit is set, in VFLAGS and in every lane (R205). -/
def vopFlagsRun (w : Work) (c : Nat) (o : Op) : EngOut :=
  let x := getCrag w c
  let clr := fld o.pkt 128 7
  { crag := { x with ex := { x.ex with
      vflags := x.ex.vflags &&& ~~~(BitVec.ofNat 7 clr)
      vlanef := Tab.drop (fun k => decide (bitsN clr k 1 = 1)) x.ex.vlanef } }
    out := [], count := 0, cycles := 1 }

end Sys2Proof.Machine
end

