-- ==== Sys2Proof/Machine/Legal.lean ====
section
/-! DEFINITION. Which packets are legal at dispatch (R51): the common fields (R48, R49), each family's own conditions, the
vector chain (R192), the Tally loops (R59, R62) and the scheduled region (R98, R99). -/

namespace Sys2Proof.Machine

/-- All four operand fields are none. -/
def noOperands (p : Packet) : Bool := srcA p = 0 && srcB p = 0 && srcC p = 0 && dstOf p = 0

/-- The other three are none. -/
def onlyA (p : Packet) : Bool := srcB p = 0 && srcC p = 0 && dstOf p = 0

def operandOk (f : Nat) : Bool :=
  match opnd f with
  | .bad => false
  | _ => true

/-- Reserved fields, values and counts of the common fields (Table 2.4, R51). -/
def commonLegal (p : Packet) : Bool :=
  fld p 81 7 = 0 && fld p 105 7 = 0 && fld p 123 5 = 0 && (predOf p = 0 || 4 ≤ predOf p) && twrapOf p ≤ 8 &&
    rdCnt p ≤ 256 && wrCnt p ≤ 256 && (unitBit p = 0 || isEither (opcOf p)) &&
    operandOk (srcA p) && operandOk (srcB p) && operandOk (srcC p) && operandOk (dstOf p)

/-- NOP and the Tally family (R53, R59, R62), with the loops active now. -/
def tallyLegal (x : Crag) (p : Packet) : Bool :=
  tselOf p = 0 && predOf p = 0 && noOperands p && rdCnt p = 0 && wrCnt p = 0 && !tstepOf p &&
    (match opcOf p with
     | 0 => fld p 128 128 = 0
     | 1 => fld p 131 29 = 0 && fld p 192 64 = 0
     | 2 =>
       let body := fld p 132 6
       fld p 131 1 = 0 && fld p 138 118 = 0 && 1 ≤ body && body ≤ 32 &&
         x.fe.loops.all (fun l => decide (l.ctr ≠ fld p 128 3)) &&
         (match x.fe.loops with
          | [] => true
          | l :: _ => decide (x.fe.rp + 1 + body ≤ l.start + l.len))
     | _ => fld p 136 24 = 0 && fld p 192 64 = 0)

/-- SUMMARY (Table 2.8). SRCA has a use with SSRC 0 only; with another SSRC it must be none (log entry 149: R51 and Table 2.8 do not say so). -/
def summaryLegal (p : Packet) : Bool :=
  let ssrc := fld p 136 4
  fld p 143 113 = 0 && fld p 128 3 ≠ 7 && ssrc ≤ 4 && (ssrc ≠ 1 || unitBit p = 1) && onlyA p &&
    (if ssrc = 0 then (opnd (srcA p)).isVreg else srcA p = 0)

/-- STREAM (R81, R82, R98, R105). The members of a multicast are the selected Crags. -/
def streamLegal (w : Work) (c : Nat) (f : FPkt) : Bool :=
  let p := f.pkt
  let ledgeOr := fun (g : Nat) (q : Bool) => (opnd g).isLedge || q
  srcB p = 0 && srcC p = 0 &&
    (match opcOf p with
     | 0x10 => srcA p = 0 && ledgeOr (dstOf p) ((opnd (dstOf p)).isPush false) && fld p 131 1 = 0 && fld p 146 110 = 0
     | 0x11 => dstOf p = 0 && ledgeOr (srcA p) ((opnd (srcA p)).isPop false) && fld p 131 1 = 0 && fld p 146 110 = 0
     | 0x12 =>
       srcA p = 0 && (opnd (dstOf p)).isLedge && fld p 131 1 = 0 && fld p 160 96 = 0 &&
         decide (fld p 152 8 ∈ f.mcSet) && decide (bitsN (od w 0x400C 0 (tenOfCrag w c)) (fld p 146 6) 1 = 1)
     | 0x1C => noOperands p && schedOf p && fld p 128 32 = 0 && fld p 224 32 = 0
     | 0x1D => noOperands p && schedOf p && fld p 128 128 = 0
     | _ => false)

/-- A Ledge extent lies in the declared read range. -/
def inReadRange (p : Packet) (a n : Nat) : Bool := (firstOutside (rdBase p) (rdCnt p) a n).isNone

/-- BELAY.POST and BELAY.WAIT (R270, R271). -/
def belayLegal (p : Packet) : Bool :=
  if opcOf p = 0x80 then noOperands p && fld p 162 30 = 0 && fld p 224 32 = 0 && fld p 192 32 ≠ 0
  else
    let lfmt := fld p 149 2
    fld p 151 9 = 0 && lfmt ≠ 3 && onlyA p && (!bit p 147 || lfmt = 0) &&
      (if lfmt = 0 then srcA p = 0
       else (opnd (srcA p)).isLedge && inReadRange p (opndLedge (srcA p)) (fld p 160 16 * (if lfmt = 1 then 16 else 32)))

/-- TASK.TAKE, TASK.PUT and TASK.DONE (R290, R291). Their queues are the AU's. -/
def taskLegal (p : Packet) : Bool :=
  let au := unitBit p = 0
  !schedOf p && srcB p = 0 && srcC p = 0 &&
    (match opcOf p with
     | 0x84 => srcA p = 0 && ((opnd (dstOf p)).isLedge || (au && (opnd (dstOf p)).isPush false)) && fld p 139 117 = 0 &&
         fld p 128 8 ≠ 0
     | 0x85 => dstOf p = 0 && ((opnd (srcA p)).isLedge || (au && (opnd (srcA p)).isPop false)) && fld p 144 112 = 0
     | _ => srcA p = 0 && dstOf p = 0 && fld p 130 126 = 0)

/-- MARK (R483). -/
def markLegal (p : Packet) : Bool :=
  match opcOf p with
  | 0x88 => noOperands p && tselOf p = 0 && predOf p = 0 && fld p 129 63 = 0
  | 0x89 =>
    let n := fld p 128 16
    onlyA p && (opnd (srcA p)).isLedge && fld p 144 112 = 0 && 1 ≤ n && n ≤ 8192 &&
      inReadRange p (opndLedge (srcA p)) (128 * n)
  | _ => false

/-- The family's own conditions; a code that no chapter defines is illegal (R50). -/
def familyLegal (w : Work) (c : Nat) (x : Crag) (f : FPkt) : Bool :=
  let p := f.pkt
  let o := opcOf p
  if o ≤ 3 then tallyLegal x p
  else if o = 8 then summaryLegal p
  else if 0x10 ≤ o ∧ o ≤ 0x1F then streamLegal w c f
  else if o = 0x4F then vflagsLegal p
  else if 0x40 ≤ o ∧ o ≤ 0x5F then vecLegal p
  else if 0x28 ≤ o ∧ o ≤ 0x2F then smmaLegal p
  else if 0x20 ≤ o ∧ o ≤ 0x37 then fabLegal p
  else if 0x38 ≤ o ∧ o ≤ 0x3F then gmLegal p
  else if 0x60 ≤ o ∧ o ≤ 0x6F then gatherLegal p
  else if 0x70 ≤ o ∧ o ≤ 0x7F then embLegal p
  else if o = 0x80 ∨ o = 0x81 then belayLegal p
  else if 0x84 ≤ o ∧ o ≤ 0x86 then taskLegal p
  else if 0x88 ≤ o ∧ o ≤ 0x8B then markLegal p
  else false

/-- SCHED = 1 packets and the region's dispatch state (R99). -/
def regionLegal (x : Crag) (p : Packet) : Bool :=
  if opcOf p = 0x1C then x.fe.region = 0
  else !schedOf p || x.fe.region = 2 || (x.fe.region = 1 && opcOf p = 0x81)

/-- A packet of a vector chain: VOP, VSCAN or VRED, not VOP.FLAGS. -/
def isChainOp (p : Packet) : Bool := isVop p || isVscan p || isVred p

/-- The chain rules (R192): a member must join the chain that is open, carry its head's ROWS, COLS, TSEL and PRED, and not
conflict with another member; a head's chain must end inside the Tally body that holds the head. -/
def chainLegal (x : Crag) (p shifted : Packet) : Bool :=
  if x.fe.chainLeft ≠ 0 then
    match x.fe.chain with
    | h :: _ =>
      isChainOp p && vJoin p && vRows p = vRows h && vCols p = vCols h && tselOf p = tselOf h && predOf p = predOf h &&
        x.fe.chain.all fun m => !conflict m shifted
    | [] => false
  else
    !isChainOp p || (!vJoin p &&
      match x.fe.loops with
      | [] => true
      | l :: _ => decide (x.fe.rp + 1 + vLinks p ≤ l.start + l.len))

/-- R51: what the front end checks of every packet it dispatches. -/
def legal (w : Work) (c : Nat) (x : Crag) (f : FPkt) (shifted : Packet) : Bool :=
  commonLegal f.pkt && familyLegal w c x f && regionLegal x f.pkt && chainLegal x f.pkt shifted

end Sys2Proof.Machine
end

