-- ==== Sys2Proof/Machine/Party.lean ====
section
/-! DEFINITION. Resets of a party (R70), of a Crag (R72), and the zeroing of Spurs that change tenancy (R392). -/

namespace Sys2Proof.Machine

def mcastD : Nat → Option (List (Nat × Nat)) := fun _ => none

/-- Takes a Crag out of every multicast that waits for members. -/
def leaveMcast (w : Work) (c : Nat) : Work :=
  { w with mcast := Tab.mapV mcastD (fun _ m => m.bind fun l => if l.any (fun e => e.1 = c) then none else some l) w.mcast }

/-- What both resets clear of a Crag: FIFO and its peak, issue buffers, queues, channels, Tally state, scoreboard; every
engine idle and CRAG_GTHSTAT clear (R233); the next fabric op reconfigures (R142). -/
def clearCrag (x : Crag) : Crag :=
  { x with
    fe := { FrontEnd.reset with nextN := x.fe.nextN, seqDisp := x.fe.seqDisp, seqAu := x.fe.seqAu, seqEu := x.fe.seqEu,
                                flight := x.fe.flight }
    ops := [], queues := [], chans := [], bivouac := false, idle := 0, credits := 0, contrib := []
    region := { x.region with state := 0, blocked := 0 }
    ex := { x.ex with reconf := true, gstate := 0, vstate := 0 }
    ac := { x.ac with gthState := 0, gthOpc := 0, gthSeq := 0, gthPois := false, embState := 0, goutst := 0 } }

/-- Forwarded blocks that no stream of a Crag has taken (R479) go with its streams. -/
def dropFwd (w : Work) (c : Nat) : Work := { w with fwdData := w.fwdData.filter fun e => e.1 ≠ c }

/-- Waits, takers, multicasts, tasks and forwarded blocks of a Crag that is being cleared (R286, R298, R300). -/
def unregister (w : Work) (c : Nat) : Work := returnTasks (dropTakers (leaveMcast (removeWaits (dropFwd w c) c) c) c) c

/-- A Crag whose power domain is switched off keeps nothing (R30); Basecamp holds its mark and the counts toward it (R517). -/
def offCrag (x : Crag) : Crag := { Crag.reset with marked := x.marked, ceTimes := x.ceTimes }

/-- The Crags of a withdrawn Spur are switched off once no party runs them (R30, R533). -/
def powerOffSpur (w : Work) (n : Nat) : Work :=
  if w.withdrawn.getLsbD n && decide ((getSummit w (leaderOf w n)).state = .reset) then
    (spurCrags w n).foldl (fun w c => let w := unregister w c; setCrag w c (offCrag (getCrag w c))) w
  else w

/-- One Crag in a party reset (Table 2.9): Ledge and vector registers are kept, packets on their way are dropped. -/
def partyResetCrag (w : Work) (c : Nat) : Work :=
  let w := unregister w c
  let x := clearCrag (getCrag w c)
  setCrag w c { x with fe := { x.fe with flight := [] } }

/-- A party reset (R70). What Table 2.9 does not list is kept, the Summit's own registers, TMASK and ISSUE among it; a SUMMARY result that is
still awaited is forgotten, so that the next load of its SUMn returns the value it holds (log entry 122). -/
def partyReset (w : Work) (lead : Nat) : Work :=
  let w := (partyCrags w lead).foldl partyResetCrag w
  let m := getSummit w lead
  let m := { m with
    state := .reset, stall := none, credits := [], issued := 0, stallCyc := 0
    sumSent := [], reds := [], haltReq := false, runHeld := false }
  (partySpurs w lead).foldl powerOffSpur (settleSlice (setSummit w lead m) (tenOfSpur w lead))

/-- The leader's credit for a Crag. -/
def setCredit (w : Work) (lead c n : Nat) : Work :=
  let m := getSummit w lead
  setSummit w lead { m with credits := Tab.set creditD m.credits c n }

/-- A Crag reset that is not refused (R72): Ledge and party membership are kept, packets on their way will be discarded, and the leader's
credit returns to 64 once they have been. Contributions of the Crag that are on their way are dropped, and
CRAG_GSTAT.POISON_TAIL and CRAG_VRSEL are cleared with the registers beside them (log entry 123). A region that was
open has ended (R103). -/
def cragResetNow (w : Work) (c : Nat) : Work :=
  let back := (getCrag w c).slots.any fun e => e.2.isSome
  let w := unregister w c
  let x := clearCrag (getCrag w c)
  let fl := x.fe.flight.map fun f => { f with discard := true }
  let w := setCrag w c { x with fe := { x.fe with flight := fl }, zmap := [], vregs := [], vpois := [],
                                ex := ExecRegs.reset, ac := { AccessRegs.reset with tReturned := back }, cntAu := 0,
                                cntEu := 0, epoch := 0 }
  let w := settleSlice w (tenOfCrag w c)
  if fl = [] then setCredit w (leaderOfCrag w c) c 64 else w

/-- CRAG_CTRL.RESET (R71, R72). -/
def cragResetOp (w : Work) (c : Nat) : Work :=
  if (getSummit w (leaderOfCrag w c)).state = .running then
    setCrag w c { getCrag w c with refused := true }
  else cragResetNow w c

/-- Ledge and vector registers of a Crag written with zeros (R392). -/
def zeroCrag (w : Work) (c : Nat) : Work :=
  let x := ledgeZero (getCrag w c)
  setCrag w c { x with vregs := [], vpois := [] }

/-- Crags, IMEM and DMEM of a Spur zeroed (R392). -/
def zeroSpur (w : Work) (s : Nat) : Work :=
  let w := (spurCrags w s).foldl zeroCrag w
  setSummit w s { getSummit w s with imem := [], dmem := [] }

end Sys2Proof.Machine
end

