-- ==== Sys2Proof/Machine/Rv.lean ====
section
/-! DEFINITION. The RV64IMC instruction set of the Summit as far as it is arithmetic (section 2.3; the instruction set itself is
the published RISC-V one, log entry 23): expansion of compressed instructions, immediates, and the integer operations. -/

namespace Sys2Proof.Machine

/-! ## Encodings of 32-bit instructions, as numbers -/

def rvR (f7 rs2 rs1 f3 rd op : Nat) : Nat :=
  op + rd * 2 ^ 7 + f3 * 2 ^ 12 + rs1 * 2 ^ 15 + rs2 * 2 ^ 20 + f7 * 2 ^ 25
def rvI (imm rs1 f3 rd op : Nat) : Nat := op + rd * 2 ^ 7 + f3 * 2 ^ 12 + rs1 * 2 ^ 15 + imm % 4096 * 2 ^ 20
def rvS (imm rs2 rs1 f3 op : Nat) : Nat :=
  op + imm % 32 * 2 ^ 7 + f3 * 2 ^ 12 + rs1 * 2 ^ 15 + rs2 * 2 ^ 20 + imm / 32 % 128 * 2 ^ 25
def rvB (imm rs2 rs1 f3 : Nat) : Nat :=
  0x63 + bitsN imm 11 1 * 2 ^ 7 + bitsN imm 1 4 * 2 ^ 8 + f3 * 2 ^ 12 + rs1 * 2 ^ 15 + rs2 * 2 ^ 20 +
    bitsN imm 5 6 * 2 ^ 25 + bitsN imm 12 1 * 2 ^ 31
def rvU (imm20 rd op : Nat) : Nat := op + rd * 2 ^ 7 + imm20 % 2 ^ 20 * 2 ^ 12
def rvJ (imm rd : Nat) : Nat :=
  0x6F + rd * 2 ^ 7 + bitsN imm 12 8 * 2 ^ 12 + bitsN imm 11 1 * 2 ^ 20 + bitsN imm 1 10 * 2 ^ 21 +
    bitsN imm 20 1 * 2 ^ 31

/-- Sign extension of an n-bit number to 64 bits, as a number. -/
def sx (n v : Nat) : Nat := ofInt 64 (toSigned n v)

/-! ## Compressed instructions -/

/-- Quadrant 0. -/
def rvc0 (h : Nat) : Option Nat :=
  let rd := 8 + bitsN h 2 3
  let rs := 8 + bitsN h 7 3
  let uw := bitsN h 10 3 * 8 + bitsN h 6 1 * 4 + bitsN h 5 1 * 64
  let ud := bitsN h 10 3 * 8 + bitsN h 5 2 * 64
  match bitsN h 13 3 with
  | 0 =>
    let imm := bitsN h 11 2 * 16 + bitsN h 7 4 * 64 + bitsN h 6 1 * 4 + bitsN h 5 1 * 8
    if imm = 0 then none else some (rvI imm 2 0 rd 0x13)
  | 2 => some (rvI uw rs 2 rd 0x03)
  | 3 => some (rvI ud rs 3 rd 0x03)
  | 6 => some (rvS uw rd rs 2 0x23)
  | 7 => some (rvS ud rd rs 3 0x23)
  | _ => none

/-- Quadrant 1. -/
def rvc1 (h : Nat) : Option Nat :=
  let rd := bitsN h 7 5
  let rc := 8 + bitsN h 7 3
  let r2 := 8 + bitsN h 2 3
  let sh := bitsN h 12 1 * 32 + bitsN h 2 5
  let imm := sx 6 sh
  match bitsN h 13 3 with
  | 0 => some (rvI imm rd 0 rd 0x13)
  | 1 => if rd = 0 then none else some (rvI imm rd 0 rd 0x1B)
  | 2 => some (rvI imm 0 0 rd 0x13)
  | 3 =>
    if rd = 2 then
      let i := bitsN h 12 1 * 512 + bitsN h 6 1 * 16 + bitsN h 5 1 * 64 + bitsN h 3 2 * 128 + bitsN h 2 1 * 32
      if i = 0 then none else some (rvI (sx 10 i) 2 0 2 0x13)
    else if sh = 0 then none else some (rvU imm rd 0x37)
  | 4 =>
    match bitsN h 10 2 with
    | 0 => some (rvI sh rc 5 rc 0x13)
    | 1 => some (rvI (sh + 0x400) rc 5 rc 0x13)
    | 2 => some (rvI imm rc 7 rc 0x13)
    | _ =>
      match bitsN h 12 1, bitsN h 5 2 with
      | 0, 0 => some (rvR 0x20 r2 rc 0 rc 0x33)
      | 0, 1 => some (rvR 0 r2 rc 4 rc 0x33)
      | 0, 2 => some (rvR 0 r2 rc 6 rc 0x33)
      | 0, _ => some (rvR 0 r2 rc 7 rc 0x33)
      | _, 0 => some (rvR 0x20 r2 rc 0 rc 0x3B)
      | _, 1 => some (rvR 0 r2 rc 0 rc 0x3B)
      | _, _ => none
  | 5 =>
    let i := bitsN h 12 1 * 2048 + bitsN h 11 1 * 16 + bitsN h 9 2 * 256 + bitsN h 8 1 * 1024 + bitsN h 7 1 * 64 +
      bitsN h 6 1 * 128 + bitsN h 3 3 * 2 + bitsN h 2 1 * 32
    some (rvJ (sx 12 i) 0)
  | k =>
    let i := bitsN h 12 1 * 256 + bitsN h 10 2 * 8 + bitsN h 5 2 * 64 + bitsN h 3 2 * 2 + bitsN h 2 1 * 32
    some (rvB (sx 9 i) 0 rc (k - 6))

/-- Quadrant 2. -/
def rvc2 (h : Nat) : Option Nat :=
  let rd := bitsN h 7 5
  let r2 := bitsN h 2 5
  match bitsN h 13 3 with
  | 0 => some (rvI (bitsN h 12 1 * 32 + r2) rd 1 rd 0x13)
  | 2 =>
    if rd = 0 then none
    else some (rvI (bitsN h 12 1 * 32 + bitsN h 4 3 * 4 + bitsN h 2 2 * 64) 2 2 rd 0x03)
  | 3 =>
    if rd = 0 then none
    else some (rvI (bitsN h 12 1 * 32 + bitsN h 5 2 * 8 + bitsN h 2 3 * 64) 2 3 rd 0x03)
  | 4 =>
    match bitsN h 12 1, r2 with
    | 0, 0 => if rd = 0 then none else some (rvI 0 rd 0 0 0x67)
    | 0, _ => some (rvR 0 r2 0 0 rd 0x33)
    | _, 0 => if rd = 0 then some 0x00100073 else some (rvI 0 rd 0 1 0x67)
    | _, _ => some (rvR 0 r2 rd 0 rd 0x33)
  | 6 => some (rvS (bitsN h 9 4 * 4 + bitsN h 7 2 * 64) r2 2 2 0x23)
  | 7 => some (rvS (bitsN h 10 3 * 8 + bitsN h 7 3 * 64) r2 2 3 0x23)
  | _ => none

/-- The 32-bit instruction a compressed one stands for; none where it is reserved or needs an extension the Summit
lacks. -/
def rvExpand (h : Nat) : Option Nat :=
  match h % 4 with
  | 0 => rvc0 h
  | 1 => rvc1 h
  | _ => rvc2 h

/-! ## Immediates of a 32-bit instruction, sign-extended to 64 bits -/

def immI (i : Nat) : Nat := sx 12 (bitsN i 20 12)
def immS (i : Nat) : Nat := sx 12 (bitsN i 7 5 + bitsN i 25 7 * 32)
def immB (i : Nat) : Nat :=
  sx 13 (bitsN i 8 4 * 2 + bitsN i 25 6 * 32 + bitsN i 7 1 * 2048 + bitsN i 31 1 * 4096)
def immU (i : Nat) : Nat := sx 32 (bitsN i 12 20 * 4096)
def immJ (i : Nat) : Nat :=
  sx 21 (bitsN i 21 10 * 2 + bitsN i 20 1 * 2048 + bitsN i 12 8 * 4096 + bitsN i 31 1 * 2 ^ 20)

/-! ## Integer operations on 64-bit numbers -/

def m64 (v : Nat) : Nat := v % 2 ^ 64
def s64 (v : Nat) : Int := toSigned 64 v
def s32 (v : Nat) : Int := toSigned 32 v
def rvSub (a b : Nat) : Nat := m64 (a + (2 ^ 64 - m64 b))

/-- OP and OP-IMM without M: funct3, whether bit 30 selects SUB or SRA. -/
def rvAlu (f3 : Nat) (alt : Bool) (a b : Nat) : Nat :=
  match f3 with
  | 0 => if alt then rvSub a b else m64 (a + b)
  | 1 => m64 (a * 2 ^ (b % 64))
  | 2 => b2n (decide (s64 a < s64 b))
  | 3 => b2n (decide (m64 a < m64 b))
  | 4 => m64 a ^^^ m64 b
  | 5 => if alt then ofInt 64 (s64 a / ((2 ^ (b % 64) : Nat) : Int)) else m64 a / 2 ^ (b % 64)
  | 6 => m64 a ||| m64 b
  | _ => m64 a &&& m64 b

/-- OP-32 and OP-IMM-32. -/
def rvAluW (f3 : Nat) (alt : Bool) (a b : Nat) : Nat :=
  match f3 with
  | 0 => sx 32 (if alt then rvSub a b else a + b)
  | 1 => sx 32 (a % 2 ^ 32 * 2 ^ (b % 32))
  | _ => if alt then sx 32 (ofInt 32 (s32 a / ((2 ^ (b % 32) : Nat) : Int))) else sx 32 (a % 2 ^ 32 / 2 ^ (b % 32))

/-- Quotient and remainder toward zero, with the results the standard gives for a zero divisor. -/
def rvDivS (w : Nat) (a b : Int) : Nat := if b = 0 then 2 ^ w - 1 else ofInt w (Int.tdiv a b)
def rvRemS (w : Nat) (a b : Int) : Nat := if b = 0 then ofInt w a else ofInt w (Int.tmod a b)
def rvDivU (w a b : Nat) : Nat := if b = 0 then 2 ^ w - 1 else a / b
def rvRemU (a b : Nat) : Nat := if b = 0 then a else a % b

/-- The M extension on 64 bits. -/
def rvMul (f3 a b : Nat) : Nat :=
  match f3 with
  | 0 => m64 (a * b)
  | 1 => ofInt 64 (s64 a * s64 b / ((2 ^ 64 : Nat) : Int))
  | 2 => ofInt 64 (s64 a * (m64 b : Int) / ((2 ^ 64 : Nat) : Int))
  | 3 => m64 a * m64 b / 2 ^ 64
  | 4 => rvDivS 64 (s64 a) (s64 b)
  | 5 => rvDivU 64 (m64 a) (m64 b)
  | 6 => rvRemS 64 (s64 a) (s64 b)
  | _ => rvRemU (m64 a) (m64 b)

/-- The M extension on 32 bits. -/
def rvMulW (f3 a b : Nat) : Nat :=
  match f3 with
  | 0 => sx 32 (a * b)
  | 4 => sx 32 (rvDivS 32 (s32 a) (s32 b))
  | 5 => sx 32 (rvDivU 32 (a % 2 ^ 32) (b % 2 ^ 32))
  | 6 => sx 32 (rvRemS 32 (s32 a) (s32 b))
  | _ => sx 32 (rvRemU (a % 2 ^ 32) (b % 2 ^ 32))

/-- Whether a branch is taken; none for a reserved funct3. -/
def rvBranch (f3 a b : Nat) : Option Bool :=
  match f3 with
  | 0 => some (decide (m64 a = m64 b))
  | 1 => some (decide (m64 a ≠ m64 b))
  | 4 => some (decide (s64 a < s64 b))
  | 5 => some (decide (s64 b ≤ s64 a))
  | 6 => some (decide (m64 a < m64 b))
  | 7 => some (decide (m64 b ≤ m64 a))
  | _ => none

end Sys2Proof.Machine
end

