-- ==== Sys2Proof/Machine/Summit.lean ====
section
/-! DEFINITION. The Summit (R41 to R47): issuing packets, target masks, credits, summary registers, the device memory window,
FENCE, EBREAK, traps, and one instruction of RV64IMC with Zicsr. -/

namespace Sys2Proof.Machine

/-- Length of the instruction a command stands for. -/
def ilen (rvc : Bool) : Nat := if rvc then 2 else 4

def getX (m : Summit) (r : Nat) : Nat := if r = 0 then 0 else (Tab.get (bvD 64) m.xs r).toNat
def setX (m : Summit) (r v : Nat) : Summit :=
  if r = 0 then m else { m with xs := Tab.set (bvD 64) m.xs r (BitVec.ofNat 64 v) }

/-- A Summit that executes its next instruction: RUNNING, not stalled, its tenancy's slice held (R398). -/
def sumReady (w : Work) (n : Nat) : Bool :=
  let m := getSummit w n
  m.state = .running && m.stall = none && canRun w (tenOfSpur w n)

/-- The Summit goes on at an address; a HALT that waited takes effect (Table 2.11). -/
def goTo (m : Summit) (pc : Nat) : Summit :=
  { m with pc := BitVec.ofNat 64 pc, stall := none, mcycle := bump m.mcycle 1,
           state := if m.haltReq && m.state = .running then .halted else m.state, haltReq := false }

/-- An instruction retires. -/
def retire (m : Summit) (pc : Nat) : Summit := goTo { m with minstret := bump m.minstret 1 } pc

def retireNext (m : Summit) (len : Nat) : Summit := retire m (m.pc.toNat + len)

/-- A trap (R46): the machine-mode registers of the RISC-V privileged architecture; the instruction does not retire. With mtvec zero the
leader enters FAULTED, SUMMIT_TRAP is raised and the party stops. -/
def sumTrap (w : Work) (n cause tval : Nat) : Work :=
  let m := getSummit w n
  let st := setFld (setFld m.mstatus 7 1 (fld m.mstatus 3 1)) 3 1 0
  let m := { m with mepc := m.pc, mcause := BitVec.ofNat 64 cause, mtval := BitVec.ofNat 64 tval, mstatus := st,
                    stall := none }
  if m.mtvec = 0 then
    stopParty (raise (setSummit w n m) (srcSummit n) 0x06 (tenOfSpur w n) (fld m.mepc 0 48)) n
  else setSummit w n (goTo m (m.mtvec.toNat / 4 * 4))

/-- RISC-V cause codes of the access faults (log entry 23). -/
def causeFetch : Nat := 1
def causeIllegal : Nat := 2
def causeLoad : Nat := 5
def causeStore : Nat := 7

/-! ## Issue -/

/-- Whether every party Crag has a credit (R45). -/
def haveCredit (w : Work) (n : Nat) : Bool :=
  (partyCrags w n).all fun c => decide (Tab.get creditD (getSummit w n).credits c ≠ 0)

/-- Smallest credit over the party's Crags. -/
def creditMin (w : Work) (n : Nat) : Nat :=
  (partyCrags w n).foldl (fun a c => min a (Tab.get creditD (getSummit w n).credits c)) 64

/-- Bit of logical Crag c in target mask k; TMASK0 is all ones (Table 2.2). -/
def maskBit (m : Summit) (k c : Nat) : Bool :=
  if k = 0 then true else (Tab.get (bvD 64) m.tmask (4 * k + c / 64)).getLsbD (c % 64)

/-- Sends one packet to every Crag of the party (R42 to R45): each copy marked by the mask as it stands now, one credit taken for each. A
SUMMARY is from now on the most recent one sent to its SUMn (R67). -/
def sendPacket (w : Work) (n : Nat) (p : Packet) : Work :=
  let m := getSummit w n
  let cs := partyCrags w n
  let w := cs.foldl (fun w c =>
    let x := getCrag w c
    let sel := if opcOf p = 0x12 then cs.filter (maskBit m (tselOf p)) else []
    let f : Flight := { pkt := p, selected := maskBit m (tselOf p) c, discard := false, mcSet := sel, tag := (n, m.sentNo + 1) }
    setCrag w c { x with fe := { x.fe with flight := x.fe.flight ++ [f] } }) w
  let credits := cs.foldl (fun t c => Tab.set creditD t c (Tab.get creditD t c - 1)) m.credits
  setSummit w n { m with
    credits := credits, issued := bump m.issued 1, sentNo := m.sentNo + 1
    sumSent := if opcOf p = 8 then Tab.set zeroD m.sumSent (fld p 132 4) (m.sentNo + 1) else m.sumSent }

/-- The four ISSUE doublewords as a packet. -/
def issuePacket (m : Summit) : Packet :=
  BitVec.ofNat 256 ((List.range 4).foldl (fun a k => a + (Tab.get (bvD 64) m.issue k).toNat * 2 ^ (64 * k)) 0)

/-- A store to ISSUE doubleword dw (R42, R45). -/
def issueStoreOp (w : Work) (n dw : Nat) (v : W64) (len : Nat) : Work :=
  if 4 ≤ dw then sumTrap w n causeStore (0x20000000 + 8 * dw)
  else
    let m := getSummit w n
    let m := { m with issue := Tab.set (bvD 64) m.issue dw v }
    let w := setSummit w n m
    if dw ≠ 3 then setSummit w n (retireNext m len)
    else if haveCredit w n then
      let w := sendPacket w n (issuePacket m)
      setSummit w n (retireNext (getSummit w n) len)
    else setSummit w n { m with stall := some (.issue (issuePacket m) len) }

def execIssueStore (n dw : Nat) (v : W64) (rvc : Bool) (s : State) : Res :=
  onSummit (.issueStore n dw v rvc) n s fun w => if sumReady w n then issueStoreOp w n dw v (ilen rvc) else w

/-- A store to TMASK (R43): TMASK0 ignores it. -/
def tmaskStoreOp (w : Work) (n mask dw : Nat) (v : W64) (len : Nat) : Work :=
  if 8 ≤ mask ∨ 4 ≤ dw then sumTrap w n causeStore (0x20000200 + 32 * mask + 8 * dw)
  else
    let m := getSummit w n
    let m := if mask = 0 then m else { m with tmask := Tab.set (bvD 64) m.tmask (4 * mask + dw) v }
    setSummit w n (retireNext m len)

def execTmaskStore (n mask dw : Nat) (v : W64) (rvc : Bool) (s : State) : Res :=
  onSummit (.tmaskStore n mask dw v rvc) n s fun w => if sumReady w n then tmaskStoreOp w n mask dw v (ilen rvc) else w

/-- A store stalled on credit sends its packet once every credit is non-zero (R45). -/
def releaseIssue (w : Work) (n : Nat) : Work :=
  match (getSummit w n).stall with
  | some (.issue p len) =>
    if haveCredit w n then
      let w := sendPacket w n p
      setSummit w n (retireNext (getSummit w n) len)
    else w
  | _ => w

/-- A freed slot's credit reaches the leader (R45). -/
def creditReturnOp (w : Work) (c : Nat) : Work :=
  let x := getCrag w c
  if x.credits = 0 then w
  else
    let n := leaderOfCrag w c
    let w := setCrag w c { x with credits := x.credits - 1 }
    releaseIssue (setCredit w n c (min 64 (Tab.get creditD (getSummit w n).credits c + 1))) n

def execCreditReturn (c : Nat) (s : State) : Res := onCrag (.creditReturn c) c s fun w => creditReturnOp w c

/-! ## Summaries -/

/-- Whether the result of the most recent SUMMARY sent to SUMn is readable (R67). A result is that of a packet: where a loop dispatches one
SUMMARY on several passes, the first pass that completes makes it readable and each later one replaces it (log entry
124). -/
def sumReadable (m : Summit) (k : Nat) : Bool := decide (Tab.get zeroD m.sumSent k ≤ Tab.get zeroD m.sumDone k)

/-- A readable SUMn read: one made from a poisoned contribution takes an access-fault trap (R110). -/
def sumTake (w : Work) (n k rd len : Nat) : Work :=
  let m := getSummit w n
  if Tab.get falseD m.sumPois k then sumTrap w n causeLoad (0x20000100 + 8 * k)
  else setSummit w n (retireNext (setX m rd (Tab.get (bvD 64) m.sums k).toNat) len)

def sumLoadOp (w : Work) (n k rd len : Nat) : Work :=
  if 16 ≤ k then sumTrap w n causeLoad (0x20000100 + 8 * k)
  else if sumReadable (getSummit w n) k then sumTake w n k rd len
  else setSummit w n { getSummit w n with stall := some (.sum k rd len) }

def execSumLoad (n k rd : Nat) (rvc : Bool) (s : State) : Res :=
  onSummit (.sumLoad n k rd rvc) n s fun w => if sumReady w n then sumLoadOp w n k rd (ilen rvc) else w

/-- A contribution extended to 64 bits (R66). -/
def extend (signed : Bool) (v : W32) : Int := if signed then toSigned 32 v.toNat else (v.toNat : Int)

/-- The result of a reduction (R66): values of the contributions that are not empty. -/
def reduceSum (kind : Nat) (signed : Bool) (vs : List W32) : W64 :=
  let es := vs.map (extend signed)
  match kind with
  | 0 => BitVec.ofInt 64 (es.foldl (· + ·) 0)
  | 1 => BitVec.ofInt 64 (es.foldl (fun a b => if b < a then b else a) (if signed then 2 ^ 31 - 1 else 2 ^ 32 - 1))
  | 2 => BitVec.ofInt 64 (es.foldl (fun a b => if a < b then b else a) (if signed then -2 ^ 31 else 0))
  | 3 => if vs.any (· ≠ 0) then 1 else 0
  | 4 => if vs.all (· ≠ 0) then 1 else 0
  | 5 => BitVec.ofNat 64 (vs.foldl (fun a b => a ||| b) (0 : W32)).toNat
  | _ => BitVec.ofNat 64 (vs.foldl (fun a b => a &&& b) (0xFFFFFFFF : W32)).toNat

/-- The reduction that a contribution belongs to. -/
def Contrib.of (k : Contrib) (r : Reduction) : Bool := decide (r.num = k.tag.2) && decide (r.pass = k.pass)

/-- The reduction of a contribution as it stands, begun when the contribution is its first. -/
def redOf (m : Summit) (k : Contrib) : Reduction :=
  (m.reds.find? k.of).getD { num := k.tag.2, pass := k.pass, sreg := k.sreg, kind := k.kind, signed := k.signed, got := [] }

/-- The reduction with the contribution of a Crag. -/
def redWith (m : Summit) (k : Contrib) (c : Nat) : Reduction :=
  let r := redOf m k
  { r with got := r.got ++ [(c, k.value, k.poison)] }

/-- A reduction that every Crag of the party has contributed to gives SUMn its result (R66, R67); what earlier SUMMARYs to SUMn still
lack is no longer awaited. -/
def redDone (m : Summit) (r : Reduction) : Summit :=
  { m with
    reds := m.reds.filter fun q => !(q.sreg = r.sreg && (decide (q.num < r.num) || (q.num = r.num && q.pass = r.pass)))
    sums := Tab.set (bvD 64) m.sums r.sreg (reduceSum r.kind r.signed (r.got.filterMap fun g => g.2.1))
    sumPois := Tab.set falseD m.sumPois r.sreg (r.got.any fun g => g.2.2)
    sumDone := Tab.set zeroD m.sumDone r.sreg r.num }

/-- A contribution reaches the reduction tree (R66, R67). One to a SUMMARY that a later one to the same SUMn has replaced, or of a packet
that another leader sent, changes nothing (log entry 124). -/
def contributionOp (w : Work) (c : Nat) : Work :=
  let x := getCrag w c
  match x.contrib with
  | [] => w
  | k :: rest =>
    let w := setCrag w c { x with contrib := rest }
    let n := leaderOfCrag w c
    let m := getSummit w n
    if k.tag.1 ≠ n ∨ k.tag.2 < Tab.get zeroD m.sumDone k.sreg then w
    else
      let r := redWith m k c
      if (partyCrags w n).all fun d => r.got.any fun g => decide (g.1 = d) then
        let m := redDone m r
        let w := setSummit w n m
        match m.stall with
        | some (.sum k' rd len) => if k' = k.sreg ∧ sumReadable m k.sreg then sumTake w n k.sreg rd len else w
        | _ => w
      else setSummit w n { m with reds := m.reds.filter (fun q => !k.of q) ++ [r] }

def execSummaryContributionArrival (c : Nat) (s : State) : Res := onCrag (.summaryContributionArrival c) c s fun w => contributionOp w c

/-! ## The device memory window -/

/-- A load's value from its bytes. -/
def loadValue (bs : List Byte) (signed : Bool) : Nat :=
  if signed then sx (8 * bs.length) (leNat bs) else leNat bs

/-- An access through the window (R47): class 0 (Table 11.4), under the tenancy of the party. -/
def windowOp (w : Work) (n va : Nat) (acc : WindowAcc) (len : Nat) : Work :=
  let t := tenOfSpur w n
  let tval := 2 ^ 48 + va
  match acc with
  | .load width signed rd =>
    if 2 ^ 48 < va + width then sumTrap w n causeLoad tval
    else
      match vRead w (.summit n) (req 0 t) va width with
      | (w, _, _, some f) => sumTrap (raise w (srcSummit n) 0x07 t f) n causeLoad tval
      | (w, bs, p, none) =>
        if p then sumTrap w n causeLoad tval
        else setSummit w n (retireNext (setX (getSummit w n) rd (loadValue bs signed)) len)
  | .store width v =>
    if 2 ^ 48 < va + width then sumTrap w n causeStore tval
    else
      match vWrite w (.summit n) (req 0 t) va (natLe width v.toNat) false with
      | (w, some f) => sumTrap (raise w (srcSummit n) 0x07 t f) n causeStore tval
      | (w, none) =>
        let m := getSummit w n
        setSummit w n (retireNext { m with wacks := m.wacks + 1 } len)

def execWindowLoadStore (n : Nat) (va : W64) (acc : WindowAcc) (rvc : Bool) (s : State) : Res :=
  onSummit (.windowLoadStore n va acc rvc) n s fun w => if sumReady w n then windowOp w n va.toNat acc (ilen rvc) else w

/-- A FENCE that orders earlier writes completes once every earlier window store has been acknowledged (R47). -/
def fenceOp (w : Work) (n len : Nat) : Work :=
  let m := getSummit w n
  if m.wacks = 0 then setSummit w n (retireNext m len) else setSummit w n { m with stall := some (.fence len) }

def execSummitFence (n : Nat) (s : State) : Res :=
  onSummit (.summitFence n) n s fun w => if sumReady w n then fenceOp w n 4 else w

/-- A window store's acknowledgement returns (R23). -/
def windowAck (w : Work) (n : Nat) : Work :=
  let m := getSummit w n
  let m := { m with wacks := m.wacks - 1 }
  match m.stall with
  | some (.fence len) => setSummit w n (if m.wacks = 0 then retireNext m len else m)
  | _ => setSummit w n m

/-- EBREAK (R46): HALTED without a fault, SUMMIT_PC at the next instruction. -/
def ebreakOp (w : Work) (n len : Nat) : Work :=
  let m := retireNext (getSummit w n) len
  setSummit w n { m with state := .halted, brk := true }

def execEbreak (n : Nat) (rvc : Bool) (s : State) : Res :=
  onSummit (.ebreak n rvc) n s fun w => if sumReady w n then ebreakOp w n (ilen rvc) else w

/-! ## Loads and stores of the Summit's own address map (R41, Table 2.2) -/

/-- SUMMIT_ID (Table 2.2). -/
def summitId (w : Work) (n : Nat) : Nat :=
  n + (getSummit w n).lead * 16 + (getSummit w (getSummit w n).lead).spurs.toNat * 2 ^ 16

/-- A load at an address of the map. -/
def mapLoad (w : Work) (n a width : Nat) (signed : Bool) (rd len : Nat) : Work :=
  let m := getSummit w n
  let done := fun (v : Nat) => setSummit w n (retireNext (setX m rd v) len)
  let dw := width = 8 ∧ a % 8 = 0
  if a + width ≤ 0x10000 then done (loadValue (Mem.read m.imem a width) signed)
  else if 0x10000000 ≤ a ∧ a + width ≤ 0x10040000 then done (loadValue (Mem.read m.dmem (a - 0x10000000) width) signed)
  else if 2 ^ 48 ≤ a ∧ a < 2 ^ 49 then windowOp w n (a - 2 ^ 48) (.load width signed rd) len
  else if dw ∧ 0x20000100 ≤ a ∧ a < 0x20000180 then sumLoadOp w n ((a - 0x20000100) / 8) rd len
  else if dw ∧ 0x20000200 ≤ a ∧ a < 0x20000300 then
    let k := (a - 0x20000200) / 8
    done (if k < 4 then 2 ^ 64 - 1 else (Tab.get (bvD 64) m.tmask k).toNat)
  else if dw ∧ a = 0x20000300 then done (creditMin w n)
  else if dw ∧ a = 0x20000308 then done w.now.toNat
  else if dw ∧ a = 0x20000310 then done (summitId w n)
  else sumTrap w n causeLoad a

/-- A store at an address of the map. -/
def mapStore (w : Work) (n a width v len : Nat) : Work :=
  let m := getSummit w n
  let dw := width = 8 ∧ a % 8 = 0
  if a + width ≤ 0x10000 then
    setSummit w n (retireNext { m with imem := Mem.write m.imem a (natLe width v) } len)
  else if 0x10000000 ≤ a ∧ a + width ≤ 0x10040000 then
    setSummit w n (retireNext { m with dmem := Mem.write m.dmem (a - 0x10000000) (natLe width v) } len)
  else if 2 ^ 48 ≤ a ∧ a < 2 ^ 49 then windowOp w n (a - 2 ^ 48) (.store width (BitVec.ofNat 64 v)) len
  else if dw ∧ 0x20000000 ≤ a ∧ a < 0x20000020 then
    issueStoreOp w n ((a - 0x20000000) / 8) (BitVec.ofNat 64 v) len
  else if dw ∧ 0x20000200 ≤ a ∧ a < 0x20000300 then
    tmaskStoreOp w n ((a - 0x20000200) / 32) ((a - 0x20000200) / 8 % 4) (BitVec.ofNat 64 v) len
  else sumTrap w n causeStore a

/-! ## Control and status registers (Zicsr) -/

/-- The value of a machine-mode register; none when the Summit has no such register (log entry 23). mip reads zero. -/
def csrRead (m : Summit) (n a : Nat) : Option Nat :=
  match a with
  | 0x300 => some (m.mstatus.toNat % 2 ^ 13 &&& 0x88 ||| 0x1800)
  | 0x301 => some (2 ^ 63 + 0x1104)
  | 0x304 => some m.mie.toNat
  | 0x305 => some m.mtvec.toNat
  | 0x340 => some m.mscratch.toNat
  | 0x341 => some m.mepc.toNat
  | 0x342 => some m.mcause.toNat
  | 0x343 => some m.mtval.toNat
  | 0x344 => some 0
  | 0xB00 => some m.mcycle.toNat
  | 0xB02 => some m.minstret.toNat
  | 0xF11 => some 0
  | 0xF12 => some 0
  | 0xF13 => some 0
  | 0xF14 => some n
  | _ => none

/-- A write of a machine-mode register. The reserved bit of mtvec's MODE reads zero; SUMMIT_MCAUSE and SUMMIT_MEPC show mcause and mepc, and
so a program's writes of them (log entries 23 and 125). -/
def csrWrite (m : Summit) (a v : Nat) : Summit :=
  let b := BitVec.ofNat 64 v
  match a with
  | 0x300 => { m with mstatus := b &&& 0x88 }
  | 0x304 => { m with mie := b }
  | 0x305 => { m with mtvec := setFld b 1 1 0 }
  | 0x340 => { m with mscratch := b }
  | 0x341 => { m with mepc := BitVec.ofNat 64 (v / 2 * 2) }
  | 0x342 => { m with mcause := b }
  | 0x343 => { m with mtval := b }
  | 0xB00 => { m with mcycle := b }
  | 0xB02 => { m with minstret := b }
  | _ => m

/-- CSRRW, CSRRS, CSRRC and their immediate forms; none when illegal. Numbers 0xC00 and above cannot be written. The reserved funct3 4 acts
as CSRRC with an immediate (log entry 23: no document gives it an effect). -/
def csrOp (m : Summit) (n i : Nat) : Option Summit :=
  let a := bitsN i 20 12
  let f3 := bitsN i 12 3
  let rs := bitsN i 15 5
  let src := if 4 ≤ f3 then rs else getX m rs
  match csrRead m n a with
  | none => none
  | some old =>
    let writes := f3 % 4 = 1 ∨ rs ≠ 0
    let new := match f3 % 4 with
      | 1 => src
      | 2 => old ||| src
      | _ => old &&& (2 ^ 64 - 1 - m64 src)
    if writes ∧ 0xC00 ≤ a then none
    else some (setX (if writes then csrWrite m a new else m) (bitsN i 7 5) old)

/-! ## One instruction -/

/-- SYSTEM and FENCE instructions. -/
def sysOp (w : Work) (n i len : Nat) : Work :=
  let m := getSummit w n
  let illegal := sumTrap w n causeIllegal i
  if bitsN i 0 7 = 0x0F then
    if bitsN i 12 3 ≠ 0 then illegal
    else if bitsN i 24 1 = 1 then fenceOp w n len
    else setSummit w n (retireNext m len)
  else if bitsN i 12 3 = 0 then
    if i = 0x00000073 then sumTrap w n 11 0
    else if i = 0x00100073 then ebreakOp w n len
    else if i = 0x30200073 then
      let st := setFld (setFld m.mstatus 3 1 (fld m.mstatus 7 1)) 7 1 1
      setSummit w n (retire { m with mstatus := st } m.mepc.toNat)
    else if i = 0x10500073 then setSummit w n (retireNext m len)
    else illegal
  else
    match csrOp m n i with
    | some m => setSummit w n (retireNext m len)
    | none => illegal

/-- Register and immediate arithmetic: the value of rd, or none for an encoding the Summit does not have. -/
def arithOp (m : Summit) (i : Nat) : Option Nat :=
  let f3 := bitsN i 12 3
  let f7 := bitsN i 25 7
  let a := getX m (bitsN i 15 5)
  let b := getX m (bitsN i 20 5)
  match bitsN i 0 7 with
  | 0x37 => some (immU i)
  | 0x17 => some (m64 (m.pc.toNat + immU i))
  | 0x13 =>
    if f3 = 1 then (if bitsN i 26 6 = 0 then some (rvAlu 1 false a (bitsN i 20 6)) else none)
    else if f3 = 5 then
      (if bitsN i 26 6 = 0 then some (rvAlu 5 false a (bitsN i 20 6))
       else if bitsN i 26 6 = 0x10 then some (rvAlu 5 true a (bitsN i 20 6)) else none)
    else some (rvAlu f3 false a (immI i))
  | 0x1B =>
    if f3 = 0 then some (rvAluW 0 false a (immI i))
    else if f3 = 1 then (if f7 = 0 then some (rvAluW 1 false a (bitsN i 20 5)) else none)
    else if f3 = 5 then
      (if f7 = 0 then some (rvAluW 5 false a (bitsN i 20 5))
       else if f7 = 0x20 then some (rvAluW 5 true a (bitsN i 20 5)) else none)
    else none
  | 0x33 =>
    if f7 = 0 then some (rvAlu f3 false a b)
    else if f7 = 1 then some (rvMul f3 a b)
    else if f7 = 0x20 ∧ (f3 = 0 ∨ f3 = 5) then some (rvAlu f3 true a b)
    else none
  | 0x3B =>
    if f7 = 0 ∧ (f3 = 0 ∨ f3 = 1 ∨ f3 = 5) then some (rvAluW f3 false a b)
    else if f7 = 1 ∧ (f3 = 0 ∨ 4 ≤ f3) then some (rvMulW f3 a b)
    else if f7 = 0x20 ∧ (f3 = 0 ∨ f3 = 5) then some (rvAluW f3 true a b)
    else none
  | _ => none

/-- A 32-bit instruction, or one a compressed one stands for. -/
def rvStep (w : Work) (n i len : Nat) : Work :=
  let m := getSummit w n
  let pc := m.pc.toNat
  let f3 := bitsN i 12 3
  let rd := bitsN i 7 5
  let a := getX m (bitsN i 15 5)
  let b := getX m (bitsN i 20 5)
  let illegal := sumTrap w n causeIllegal i
  match bitsN i 0 7 with
  | 0x03 =>
    if f3 = 7 then illegal else mapLoad w n (m64 (a + immI i)) (2 ^ (f3 % 4)) (f3 < 4) rd len
  | 0x23 => if 4 ≤ f3 then illegal else mapStore w n (m64 (a + immS i)) (2 ^ f3) b len
  | 0x63 =>
    match rvBranch f3 a b with
    | none => illegal
    | some t => setSummit w n (if t then retire m (m64 (pc + immB i)) else retireNext m len)
  | 0x6F => setSummit w n (retire (setX m rd (m64 (pc + len))) (m64 (pc + immJ i)))
  | 0x67 =>
    if f3 ≠ 0 then illegal else setSummit w n (retire (setX m rd (m64 (pc + len))) (m64 (a + immI i) / 2 * 2))
  | 0x0F => sysOp w n i len
  | 0x73 => sysOp w n i len
  | _ =>
    match arithOp m i with
    | some v => setSummit w n (retireNext (setX m rd v) len)
    | none => illegal

/-- The Summit executes the instruction at its program counter (R41). -/
def instructionOp (w : Work) (n : Nat) : Work :=
  let m := getSummit w n
  let pc := m.pc.toNat
  if 0x10000 < pc + 2 then sumTrap w n causeFetch pc
  else
    let h := leNat (Mem.read m.imem pc 2)
    if h % 4 = 3 then
      if 0x10000 < pc + 4 then sumTrap w n causeFetch (pc + 2)
      else rvStep w n (leNat (Mem.read m.imem pc 4)) 4
    else
      match rvExpand h with
      | some i => rvStep w n i 2
      | none => sumTrap w n causeIllegal h

def execSummitInstruction (n : Nat) (s : State) : Res :=
  onSummit (.summitInstruction n) n s fun w => if sumReady w n then instructionOp w n else w

end Sys2Proof.Machine
end

