-- ==== Sys2Proof/Machine/FrontEnd.lean ====
section
/-! DEFINITION. The front end of a Crag: arriving packets (R44, R72), dispatch (R36, R51 to R55, R99, R192), the Tally (R59 to
R63) and the slots it frees (R45, R61). -/

namespace Sys2Proof.Machine

/-! ## The Tally -/

/-- The active loop of a counter. -/
def loopOf (x : Crag) (ctr : Nat) : Option Loop := x.fe.loops.find? fun l => l.ctr = ctr

/-- Iteration index of a counter; none while it is inactive. -/
def tallyIter (x : Crag) (ctr : Nat) : Option Nat := (loopOf x ctr).map fun l => l.idx.toNat

/-- Output of a comparator now (R63). -/
def cmpOut (x : Crag) (k : Nat) : Bool :=
  let m := Tab.get cmpD x.fe.cmps k
  match m.configured, loopOf x m.ctr with
  | true, some l =>
    let v := if m.fromLast then l.n.toNat - 1 - l.idx.toNat else l.idx.toNat
    match m.rel with
    | 0 => decide (v = m.value.toNat)
    | 1 => decide (v ≠ m.value.toNat)
    | 2 => decide (v < m.value.toNat)
    | _ => decide (m.value.toNat ≤ v)
  | _, _ => false

def predTrue (x : Crag) (p : Packet) : Bool := predOf p = 0 || cmpOut x (predOf p % 4)

/-- The region offset of R55. -/
def regionOffset (x : Crag) (p : Packet) : Nat :=
  if !tstepOf p then 0
  else
    match tallyIter x (tctrOf p) with
    | none => 0
    | some i => (if twrapOf p = 0 then i else i % 2 ^ twrapOf p) * 2 ^ tshiftOf p

/-- Positions of the argument fields that name a Ledge region (R55), by opcode. -/
def regionFields (o : Nat) : List Nat :=
  if 0x20 ≤ o ∧ o ≤ 0x37 then [208, 216, 240]
  else if o = 0x38 ∨ o = 0x3A then (if o = 0x38 then [178] else [240])
  else if o = 0x60 then [162, 171]
  else if 0x61 ≤ o ∧ o ≤ 0x6F then [162]
  else if o = 0x70 then [168]
  else if 0x7A ≤ o ∧ o ≤ 0x7C then [195]
  else []

def shiftField (off : Nat) (p : Packet) (lo : Nat) : Packet := setFld p lo 8 ((fld p lo 8 + off) % 256)

/-- A packet with the offsets of R55 applied: RD_BASE, WR_BASE, Ledge-region operands and the argument fields. -/
def shifted (x : Crag) (p : Packet) : Packet :=
  let off := regionOffset x p
  if off = 0 then p
  else
    let ops := [16, 26, 36, 46].filter fun lo => fld p (lo + 8) 2 = 2
    ([64, 88] ++ ops ++ regionFields (opcOf p)).foldl (shiftField off) p

/-! ## Advancing through the FIFO -/

/-- Discards packets of a loop whose N is 0, as they are here (R61). -/
def skipPackets (f : FrontEnd) : FrontEnd :=
  let k := min f.skip (f.fifo.length - f.rp)
  { f with rp := f.rp + k, skip := f.skip - k }

/-- Loops whose body ends here: the next pass begins, or the counter becomes inactive (R61). -/
def closeLoops (rp : Nat) : List Loop → Nat × List Loop
  | [] => (rp, [])
  | l :: ls =>
    if rp = l.start + l.len then
      if l.idx.toNat + 1 < l.n.toNat then (l.start, { l with idx := l.idx + 1 } :: ls) else closeLoops rp ls
    else (rp, l :: ls)

/-- After a packet has been dispatched or discarded: loop ends, and slots that nothing retains are freed, each one's credit
on its way (R45, R61). -/
def advance (x : Crag) : Crag :=
  let f := skipPackets x.fe
  let r := if f.skip = 0 then closeLoops f.rp f.loops else (f.rp, f.loops)
  if r.2 = [] then
    { x with fe := { f with rp := 0, loops := [], fifo := f.fifo.drop r.1 }, credits := x.credits + r.1 }
  else { x with fe := { f with rp := r.1, loops := r.2 } }

def stepRp (x : Crag) : Crag := advance { x with fe := { x.fe with rp := x.fe.rp + 1 } }

/-- What the front end executes itself (R59 to R63). -/
def tallyOp (x : Crag) (p : Packet) : Crag :=
  match opcOf p with
  | 1 => stepRp { x with fe := { x.fe with
      counts := Tab.set (bvD 32) x.fe.counts (fld p 128 3) (BitVec.ofNat 32 (fld p 160 32)) } }
  | 2 =>
    let ctr := fld p 128 3
    let n := Tab.get (bvD 32) x.fe.counts ctr
    let body := fld p 132 6
    if n = 0 then stepRp { x with fe := { x.fe with skip := body } }
    else stepRp { x with fe := { x.fe with
      loops := { ctr := ctr, n := n, start := x.fe.rp + 1, len := body, idx := 0 } :: x.fe.loops } }
  | 3 => stepRp { x with fe := { x.fe with
      cmps := Tab.set cmpD x.fe.cmps (fld p 128 2)
        { configured := true, ctr := fld p 130 3, rel := fld p 133 2, fromLast := bit p 135,
          value := BitVec.ofNat 32 (fld p 160 32) } } }
  | _ => stepRp x

/-! ## Dispatch -/

/-- Packets in a unit's issue buffer: dispatched and not started. -/
def issued (x : Crag) (u : Nat) : Nat := (x.ops.filter fun o => decide (o.unit = u) && !o.started).length

/-- An op as dispatched. -/
def newOp (n : Nat) (p : Packet) (members : List Packet) (mcSet : List Nat) (lidx : W32) (pred head : Bool) : Op :=
  { n := n, unit := unitOf p, pkt := p, members := members, mcSet := mcSet, lidx := lidx, pred := pred, head := head,
    stage := .dispatched, needA := 0, needB := 0, inA := [], inB := [], inV := [], vec := ⟨0, 0, 0, []⟩, outQ := [], acks := 0, remoteUps := [], posts := false,
    count := 0, cycles := 0, epoch := 0, targets := [], abandoned := false, puts := [], desc := 0, descPois := false, walk := Walk.reset, seed := 0, hyp := [], hypPois := false, poisonSent := false,
    ffl := 0, vfl := 0, sumTag := (0, 0), sumPass := [], regNo := 0 }

def addOp (x : Crag) (o : Op) : Crag :=
  { x with ops := x.ops ++ [o], fe := { x.fe with nextN := x.fe.nextN + 1 } }

/-- The region's dispatch state after a packet (R99). -/
def regionAfter (r : Nat) (p : Packet) : Nat :=
  if !schedOf p then r
  else if opcOf p = 0x1C then 1
  else if opcOf p = 0x1D then 0
  else if opcOf p = 0x81 ∧ r = 1 then 2
  else r

/-- The last member of a chain has been dispatched: its executing members become one op (R53, R193). -/
def closeChain (x : Crag) : Crag :=
  let ps := ((x.fe.chain.zip x.fe.chainSel).filter fun e => e.2).map (·.1)
  let x := { x with fe := { x.fe with chain := [], chainSel := [] } }
  match ps with
  | [] => x
  | h :: ms => addOp x (newOp x.fe.nextN h ms [] 0 true false)

/-- A member joins the chain that is open, or opens one (R192). -/
def chainStep (x : Crag) (p : Packet) (run : Bool) : Crag :=
  let left := if x.fe.chainLeft ≠ 0 then x.fe.chainLeft - 1 else vLinks p
  let x := { x with fe := { x.fe with chain := x.fe.chain ++ [p], chainSel := x.fe.chainSel ++ [run], chainLeft := left } }
  if left = 0 then closeChain x else x

/-- A packet that declares nothing. -/
def noRegions (p : Packet) : Packet := setFld (setFld p 72 9 0) 96 9 0

/-- A contribution to the reduction that a SUMMARY packet names (Table 2.8). -/
def contribOf (p : Packet) (tag : Nat × Nat) (pass : List Nat) (value : Option W32) (poison : Bool) : Contrib :=
  { tag := tag, pass := pass, sreg := fld p 132 4, kind := fld p 128 3, signed := bit p 131, value := value, poison := poison }

/-- A legal packet of a unit's family passes to it, or is dispatched as a NOP (R53, R65). -/
def passOn (x : Crag) (f : FPkt) (q : Packet) : Crag :=
  let p := f.pkt
  let run := f.selected && predTrue x p
  let head := schedOf p && opcOf p = 0x81 && x.fe.region = 1
  let x := { x with fe := { x.fe with region := regionAfter x.fe.region p } }
  let pass := x.fe.loops.map fun l => l.idx.toNat
  let add := fun (o : Op) => addOp x { o with sumTag := f.tag, sumPass := pass }
  if isChainOp p then chainStep x q run
  else if opcOf p = 8 then
    if f.selected then
      let i := (tallyIter x (fld p 140 3)).getD 0
      add (newOp x.fe.nextN (if run then q else noRegions q) [] [] (BitVec.ofNat 32 i) run false)
    else { x with contrib := x.contrib ++ [contribOf p f.tag pass none false] }
  else if run then add (newOp x.fe.nextN q [] f.mcSet 0 true head)
  else x

/-- Whether the next packet waits for its unit's issue buffer (R36): 4 packets. A packet that is dispatched as a NOP takes no place in it
and does not wait (R53, log entry 120), and the executing members of a chain take one place together. -/
def bufferFull (x : Crag) (f : FPkt) : Bool :=
  let p := f.pkt
  let run := f.selected && (predTrue x p || opcOf p = 8)
  run && decide (4 ≤ issued x (unitOf p)) && !(isChainOp p && x.fe.chainLeft ≠ 0 && x.fe.chainSel.any id)

/-- The front end of a Crag can dispatch: not frozen, its clocks running, nothing left to discard (R61), in service, its tenancy
not pre-empted (R398). -/
def feReady (w : Work) (c : Nat) : Bool :=
  let x := getCrag w c
  !x.fe.frozen && !x.bivouac && x.fe.skip = 0 && cragPresent w c && canRun w (tenOfCrag w c)

/-- DISPATCH (R36, R51, R53). A packet is checked before a place in the issue buffer is looked for: an illegal one raises ILLEGAL_OP at once
even when its unit's buffer is full (log entry 120: R36 and R51 do not say which comes first). -/
def dispatchOp (w : Work) (c : Nat) : Work :=
  let x := getCrag w c
  if !feReady w c then w
  else
    match x.fe.fifo[x.fe.rp]? with
    | none => w
    | some f =>
      let p := f.pkt
      let q := shifted x p
      let seq := { x with fe := { x.fe with seqDisp := BitVec.ofNat 8 (seqOf p) } }
      if !legal w c x f q then cragFault (setCrag w c seq) c 0x03 (opcOf p * 256 + seqOf p)
      else if isFrontEnd (opcOf p) then setCrag w c (tallyOp seq p)
      else if bufferFull x f then w
      else setCrag w c (stepRp (passOn seq f q))

def execDispatch (c : Nat) (s : State) : Res := onCrag (.dispatch c) c s fun w => dispatchOp w c

/-! ## Arrival -/

/-- Whether an arriving packet takes the Crag out of Bivouac: one for an idle unit (R305). -/
def wakes (x : Crag) (p : Packet) : Bool := !isFrontEnd (opcOf p) && x.ops.all fun o => decide (o.unit ≠ unitOf p)

/-- PACKET_ARRIVAL (R44): the packet enters the FIFO, or is discarded when a Crag reset caught it (R72). The leader's credit then returns
to the FIFO's free slots, which may release a stalled store (R45). A packet that was on its way when its party stopped
enters the frozen FIFO too (log entry 121). -/
def arrivalOp (w : Work) (c : Nat) : Work :=
  let x := getCrag w c
  match x.fe.flight with
  | [] => w
  | f :: rest =>
    let x := { x with fe := { x.fe with flight := rest } }
    if f.discard then
      let w := setCrag w c x
      if rest.any (·.discard) then w
      else releaseIssue (setCredit w (leaderOfCrag w c) c (64 - rest.length - x.fe.fifo.length - x.credits)) (leaderOfCrag w c)
    else
      let fifo := x.fe.fifo ++ [{ pkt := f.pkt, selected := f.selected, mcSet := f.mcSet, tag := f.tag }]
      let x := { x with fe := { x.fe with fifo := fifo, peak := max x.fe.peak fifo.length } }
      let x := if wakes x f.pkt then leaveBivouac x else x
      setCrag w c (if x.fe.frozen || x.fe.skip = 0 then x else advance x)

def execPacketArrival (c : Nat) (s : State) : Res := onCrag (.packetArrival c) c s fun w => arrivalOp w c

end Sys2Proof.Machine
end

