-- ==== Sys2Proof/Machine/Streams.lean ====
section
/-! DEFINITION. The STREAM family (R81 to R94), compressed streams (R91, R92), streams over host memory (R112 to R116) and
over other devices (R459, R468), weight multicast (R105 to R107) and poison in streams (R110, R111). A stream op is worked
on by the functions here at its start and whenever something it waits for arrives. -/

namespace Sys2Proof.Machine

/-- A stream op at work: the block, its op, its channel, and the error that stops it. -/
structure Sst where
  w   : Work
  o   : Op
  h   : Chan
  err : Option OpErr

def strmTen (w : Work) (c : Nat) : Nat := tenOfCrag w c

/-- What a stream's memory requests carry. -/
def strmReq (w : Work) (c : Nat) (d : Desc) : Req := ⟨dClass d, tenOfCrag w c, dCache d = 1, false⟩

/-- The ready members of the multicast of an op (R106). -/
def mcastMembers (w : Work) (o : Op) : List (Nat × Nat) := (Tab.get (fun _ => none) w.mcast (fld o.pkt 146 6)).getD []

/-- What a multicast has delivered, on the channels of its other members: each shows its own progress (Tables 3.10, 3.11). -/
def mirror (c : Nat) (t : Sst) : Work :=
  if opcOf t.o.pkt ≠ 0x12 then t.w
  else
    (mcastMembers t.w t.o).foldl (fun w m =>
      match findOp (getCrag w m.1) m.2 with
      | none => w
      | some o =>
        if m.1 = c then w
        else
          let ch := strmCh o.pkt
          let h := getChan (getCrag w m.1) ch
          setCrag w m.1 (setChan (getCrag w m.1) ch { h with
            state := t.h.state, next := t.h.next, cur := t.h.cur, idxAt := t.h.idxAt, owed := t.h.owed, done := t.h.done
            poisonSeen := h.poisonSeen || t.h.poisonSeen })) t.w

/-- The op and channel as they stand, and the party stop of an error. -/
def sClose (c : Nat) (t : Sst) : Work :=
  let w := mirror c t
  let w := setCrag w c (setChan (setOp (getCrag w c) t.o) (strmCh t.o.pkt) t.h)
  match t.err with
  | some e => opFault w c e
  | none => w

/-- An error stops the op: the Crag is as the error leaves it, and the channel stays as it stands (R57, R116). -/
def Sst.fail (c : Nat) (t : Sst) (e : OpErr) : Sst := { t with w := leaveOf t.w c e, err := some { e with left := none } }

/-- POISON, once per stream op (R111). -/
def strmPoison (c : Nat) (t : Sst) (addr : Nat) : Sst :=
  if t.o.poisonSent then { t with h := { t.h with poisonSeen := true } }
  else
    { t with w := cragNote t.w c 0x0A addr, o := { t.o with poisonSent := true }, h := { t.h with poisonSeen := true } }

/-- Address of element next, read through the index tensor where IDX is 1 (R87): one index per position. -/
def arm (c : Nat) (t : Sst) : Sst :=
  let d := t.h.desc
  let k := t.h.next
  if !dIdx d then { t with h := { t.h with cur := dAddr d k 0, idxAt := none } }
  else
    let j := dIdxPos d k
    let use := fun (t : Sst) (v : Nat) (p : Bool) => { t with h := { t.h with cur := dAddr d k v, idxAt := some (j, v, p) } }
    match t.h.idxAt with
    | some (i, v, p) =>
      if i = j then use t v p else fetch j use
    | none => fetch j use
where
  fetch (j : Nat) (use : Sst → Nat → Bool → Sst) : Sst :=
    let d := t.h.desc
    let n := dIdxBytes d
    let a := dIdxBase d + n * j
    if dIdxLedge d then
      match opRead (getCrag t.w c) t.o.pkt (a % 2 ^ 20) n with
      | .error e => t.fail c e
      | .ok (bs, p) => use t (leNat bs) p
    else
      match vRead t.w (.crag c) (strmReq t.w c d) (a % 2 ^ 48) n with
      | (w, _, _, some f) => Sst.fail c { t with w := w } ⟨0x07, f, none⟩
      | (w, bs, p, none) => use { t with w := w } (leNat bs) p

def idxPoisoned (h : Chan) : Bool :=
  match h.idxAt with
  | some (_, _, p) => p
  | none => false

/-- Block of the index tensor that holds the current index. -/
def idxBlock (h : Chan) : Nat :=
  let d := h.desc
  let a := dIdxBase d + dIdxBytes d * dIdxPos d h.next
  (if dIdxLedge d then a % 2 ^ 20 else a % 2 ^ 48) / 128 * 128

/-! ## Reads -/

/-- Packed bytes go to the destination: an entry, or Ledge bytes of the op or of every multicast member; a multicast's bytes cross the link
between the Crag dies once when a member lies on the other die (R25). -/
def sPut (c : Nat) (t : Sst) (bs : List Byte) (poison last : Bool) : Sst :=
  if opcOf t.o.pkt = 0x12 then
    let ms := mcastMembers t.w t.o
    let far := ms.any fun m => dieOf t.w m.1 ≠ dieOf t.w c
    let t := { t with w := meterRidge (mirror c t) (tenOfCrag t.w c) (if far then 128 else 0) }
    let t := ms.foldl (fun (t : Sst) m =>
      match findOp (getCrag t.w m.1) m.2 with
      | none => t
      | some o =>
        match opWrite (getCrag t.w m.1) o.pkt (opndLedge (dstOf o.pkt) + t.h.ledgeAt) bs poison with
        | .ok x => { t with w := setCrag t.w m.1 x }
        | .error e => if m.1 = c then t.fail c e else { t with w := opFault t.w m.1 e }) t
    { t with h := { t.h with ledgeAt := t.h.ledgeAt + bs.length } }
  else
    match opnd (dstOf t.o.pkt) with
    | .queue q => { t with o := { t.o with outQ := t.o.outQ ++ [(q, Entry.mk bs last poison)] } }
    | _ =>
      match opWrite (getCrag t.w c) t.o.pkt (opndLedge (dstOf t.o.pkt) + t.h.ledgeAt) bs poison with
      | .ok x => { t with w := setCrag t.w c x, h := { t.h with ledgeAt := t.h.ledgeAt + bs.length } }
      | .error e => t.fail c e

/-- Elements that a read stream has taken and not yet pushed or written into the Ledge. -/
def sUnpushed (t : Sst) : Nat :=
  if dCmp t.h.desc then (if t.o.outQ = [] then 0 else t.h.owed.length)
  else ((t.o.outQ.map fun e => e.2.bytes.length).sum + t.h.pack.length) / dEsz t.h.desc

/-- CH_DONE counts the elements delivered so far (Table 3.10). -/
def sSettle (t : Sst) : Sst :=
  let left := t.h.owed.drop (t.h.owed.length - sUnpushed t)
  { t with h := { t.h with owed := left, done := bump t.h.done (t.h.owed.length - left.length) } }

/-- One element is delivered: packed until 128 bytes stand or the stream ends (R88). -/
def sDeliver (c : Nat) (t : Sst) (bs : List Byte) (poison : Bool) : Sst :=
  let po := poison || t.h.descPois
  let pack := t.h.pack ++ bs
  let pp := po || t.h.packPois.any id
  let next := t.h.next + 1
  let h := { t.h with next := next, owed := t.h.owed ++ [(t.h.next, t.h.cur)], poisonSeen := t.h.poisonSeen || po }
  let o := { t.o with count := t.o.count + 1 }
  let last := next = dTotal t.h.desc
  if 128 ≤ t.h.ledgeAt % 128 + pack.length ∨ last then
    sSettle (sPut c { t with o := o, h := { h with pack := [], packPois := [] } } pack pp last)
  else { t with o := o, h := { h with pack := pack, packPois := [pp] } }

/-- Elements that lie in a block just read are delivered in order: at most n, while the address stays in the block and no
new index is needed. -/
def sDeliverBlock (c blk : Nat) (bs : List Byte) (poison : Bool) : Nat → Sst → Sst
  | 0, t => t
  | n + 1, t =>
    let d := t.h.desc
    if t.err.isSome || dTotal d ≤ t.h.next || t.h.cur / 128 ≠ blk then t
    else
      let t := sDeliver c t ((bs.drop (t.h.cur % 128)).take (dEsz d)) poison
      if dTotal d ≤ t.h.next || (dIdx d && t.h.idxAt.map (·.1) ≠ some (dIdxPos d t.h.next)) then t
      else sDeliverBlock c blk bs poison n (arm c t)

/-- A compressed tile ends (R91). -/
def tileDone (t : Sst) : Sst :=
  { t with h := { t.h with next := t.h.next + 1, owed := t.h.owed ++ [(t.h.next, t.h.cur)], blk := 0, blks := 0 },
           o := { t.o with count := t.o.count + 1 } }

/-- A header or a stored block of a compressed stream arrives (R91, R110). -/
def sCmp (c : Nat) (t : Sst) (bs : List Byte) (poison : Bool) : Sst :=
  let d := t.h.desc
  let po := poison || t.h.descPois
  let t := { t with h := { t.h with poisonSeen := t.h.poisonSeen || po } }
  let lastTile := t.h.next + 1 = dTotal d
  if t.h.blks = 0 then
    let hb := (bs.drop (t.h.cur % 128)).take 16
    if po then
      let hv := setBits (setBits (leNat hb) 96 16 64) 112 1 1
      let t := sPut c t (natLe 16 hv) true false
      let t := (List.range 64).foldl (fun t i => sPut c t (zeros 128) true (lastTile && i = 63)) t
      tileDone t
    else
      let n := hdrCount (leNat hb)
      let t := sPut c t hb false (lastTile && n = 0)
      if n = 0 then tileDone t
      else { t with h := { t.h with hdr := BitVec.ofNat 128 (leNat hb), blks := n, blk := 0 } }
  else
    let last := t.h.blk + 1 = t.h.blks
    let t := sPut c t bs po (lastTile && last)
    if last then tileDone t else { t with h := { t.h with blk := t.h.blk + 1 } }

/-- Address of the block that the stream asks for next. -/
def readBlock (h : Chan) : Nat :=
  if dCmp h.desc && h.blks ≠ 0 then (dIdxBase h.desc + 128 * (fld h.hdr 64 32 + h.blk)) % 2 ^ 48
  else h.cur / 128 * 128

/-- A block that the stream asked for arrives: its bytes are delivered. -/
def sTake (c : Nat) (t : Sst) (bs : List Byte) (poison : Bool) : Sst :=
  let bs := (padTo 128 0 bs).take 128
  if dCmp t.h.desc then sSettle (sCmp c t bs poison) else sDeliverBlock c (t.h.cur / 128) bs poison 128 t

/-- A FWD frame (R477, Table 16.4): payload bytes counted, for the Rope and for the tenancy it serves (Table 13.6). With no VC4 credit the
input that it forwards waits (R479). -/
def sendFwd (w : Work) (ten kind addr : Nat) (poison : BitVec 2) (payload : List Byte) (hdr : Frame → Frame) : Work :=
  let pl := padTo ((payload.length + 127) / 128 * 128) 0 payload
  let f := hdr { blankFrame w 12 0 with
    loc := true, dst := 0, addr := BitVec.ofNat 48 addr, inc := BitVec.ofNat 32 kind, len := pl.length / 128,
    poison := poison, payload := pl }
  if !portLive w 8 then w
  else if !clearToSend w 8 f then waitFor w .credit
  else
    let w := meterRidge (meterFrame (transmit w 8 f) true ten pl.length) ten (2 * pl.length)
    let x := getPort w 8
    setPort w 8 { x with fwdBytes := bump x.fwdBytes pl.length }

/-- Host read data delivered to a stream, over the Ridge from the Port die; a Duplex primary forwards it first (R479). -/
def sHostData (c : Nat) (t : Sst) (bs : List Byte) (poison : Bool) : Sst :=
  let w := meterRidge t.w (tenOfCrag t.w c) 128
  let w := if t.w.fwding then
      sendFwd w (tenOfCrag w c) 3 (c + strmCh t.o.pkt * 256) (BitVec.ofNat 2 (b2n poison)) ((padTo 128 0 bs).take 128) id
    else w
  sTake c { t with w := w, h := { t.h with asked := false } } bs poison

/-- A read of a host that is gone delivers poisoned zeros at once (R448, R538). -/
def sHostGone (c : Nat) (t : Sst) (a : Nat) : Sst :=
  sHostData c { t with w := raise { t.w with cplErr := true } srcPcie 0x59 (tenOfCrag t.w c) a } (zeros 128) true

/-- The oldest forwarded block of a Crag's channel. A standby has no other host data; a device that was promoted takes what is left of it
before it reads on from the first element not forwarded (R479, R492). -/
def takeFwd (w : Work) (c ch : Nat) : Work × Option (List Byte × Bool) :=
  let mine := fun (e : Nat × Nat × List Byte × Bool) => decide (e.1 = c ∧ e.2.1 = ch)
  match w.fwdData.find? mine with
  | none => (w, none)
  | some e => ({ w with fwdData := w.fwdData.eraseP mine }, some e.2.2)

/-- Asks for the block of the next element: nothing more for device memory; a translation or a read request to the host;
a READ frame to another device, none when it is pending, else the poison it delivers at once. -/
def sAsk (c : Nat) (t : Sst) : Sst × Bool :=
  let d := t.h.desc
  let a := readBlock t.h
  if dAsp d = 0 then (t, false)
  else if dAsp d = 1 then
    match takeFwd t.w c (strmCh t.o.pkt) with
    | (w, some b) => (sTake c { t with w := w } b.1 b.2, true)
    | (_, none) =>
      if isStandby t.w then (t, false)
      else if t.w.hostGone then (sHostGone c t a, true)
      else if hostPage a ∈ t.h.pages then
        ({ t with w := askHost t.w c t.o.n (.hostRead (pasidOf t.w c) a 128 (dNosnoop d)), h := { t.h with asked := true } }, false)
      else ({ t with w := askHost t.w c t.o.n (.atsRequest (pasidOf t.w c) (hostPage a)) }, false)
  else
    let f := { blankFrame t.w 2 (dDev d) with addr := BitVec.ofNat 48 (a + 16) }
    match sendRequest t.w c t.o.n (tenOfCrag t.w c) 0 f with
    | (w, none) => ({ t with w := w }, false)
    | (w, some st) =>
      let w := cragNote w c 0x5E (remoteAddr (BitVec.ofNat 16 (dDev d)) st)
      (sTake c { t with w := w } (zeros 128) true, true)

/-- A read stream goes on until it waits for something (R78, R85, R88, R110). -/
def readPump (c : Nat) : Nat → Sst → Sst
  | 0, t => t
  | n + 1, t =>
    if t.err.isSome then t
    else
      let (x, left) := pushMany (getCrag t.w c) t.o.outQ
      let t := sSettle { t with w := setCrag t.w c x, o := { t.o with outQ := left } }
      if left ≠ [] then { t with h := { t.h with state := 2 } }
      else
        let t := { t with h := { t.h with state := 1 } }
        if dTotal t.h.desc ≤ t.h.next then { t with o := { t.o with stage := .done } }
        else
          let t := if dCmp t.h.desc && t.h.blks ≠ 0 then t else arm c t
          if t.err.isSome then t
          else if idxPoisoned t.h then readPump c n (sDeliver c t (zeros (dEsz t.h.desc)) true)
          else
            match sAsk c t with
            | (t, true) => readPump c n t
            | (t, false) => t

/-! ## Writes -/

/-- What a write of a run reports for poison: its first poisoned block. -/
def runPoison (h : Chan) : Option Nat :=
  match (List.range h.packPois.length).find? fun i => h.packPois.getD i false with
  | some i => some (h.packAt / 128 * 128 + 128 * i)
  | none => none

/-- A write has been made, or discarded: POISON is raised for its first poisoned block when it has been made (R111). -/
def wrotePoison (c : Nat) (made : Bool) (bad : Option Nat) (t : Sst) : Sst :=
  match bad with
  | some b => if made then strmPoison c t b else { t with h := { t.h with poisonSeen := true } }
  | none => t

/-- A frame that writes bytes of one block, or two whole blocks, to another device (R459); its digest contribution (R485). -/
def sFrame (c : Nat) (t : Sst) (a : Nat) (bs : List Byte) (poison : List Bool) : Sst :=
  if t.err.isSome then t
  else
    let d := t.h.desc
    let dev := dDev d
    let whole := a % 128 = 0 ∧ bs.length % 128 = 0
    let po := BitVec.ofNat 2 (b2n (poison.getD 0 false) + 2 * b2n (poison.getD 1 false))
    let base := a / 128 * 128
    let pl := padTo ((a % 128 + bs.length + 127) / 128 * 128) 0 (zeros (a % 128) ++ bs)
    let f := { blankFrame t.w 1 dev with
      addr := BitVec.ofNat 48 base, len := pl.length / 128, poison := po, payload := pl, part := !whole
      first := if whole then 0 else a % 128, nbytes := if whole then 0 else bs.length - 1 }
    let w := if dev = devId t.w ∨ twinId t.w = some dev then t.w
      else (chunks 128 pl).foldl (fun (acc : Work × Nat) b =>
        (addDigest acc.1 c t.o.epoch (dev * 2 ^ 48 + (base + 128 * acc.2)) 2 (b2n (poison.getD acc.2 false)) b, acc.2 + 1))
        (t.w, 0) |>.1
    let w := meterRidge w (tenOfCrag w c) pl.length
    match sendRequest w c t.o.n (tenOfCrag w c) 0 f with
    | (w, none) =>
      wrotePoison c (!silenced w) (poison.findIdx? id |>.map fun i => base + 128 * i) { t with w := w, o := { t.o with acks := t.o.acks + 1 } }
    | (w, some 0) => { t with w := w }
    | (w, some st) => Sst.fail c { t with w := w } ⟨0x5E, remoteAddr (BitVec.ofNat 16 dev) st, none⟩

/-- The run of bytes gathered so far is written at its address (R90, R93, R459). -/
def sWriteRun (c : Nat) (t : Sst) : Sst :=
  let d := t.h.desc
  let a := t.h.packAt
  let bs := t.h.pack
  let pp := t.h.packPois
  let bad := runPoison t.h
  let t := { t with h := { t.h with pack := [], packPois := [], poisonSeen := t.h.poisonSeen || bad.isSome } }
  if dAsp d = 0 then
    match vWrite t.w (.crag c) (strmReq t.w c d) a bs (pp.any id) with
    | (w, some f) => Sst.fail c { t with w := w } ⟨0x07, f, none⟩
    | (w, none) => wrotePoison c true bad { t with w := w, o := { t.o with acks := t.o.acks + 1 } }
  else if dAsp d = 1 then
    let w := meterRidge t.w (tenOfCrag t.w c) 128
    wrotePoison c (hostTakes w) bad
      { t with w := hostWrite w c t.o.epoch (pasidOf w c) a bs (pp.any id) (dNosnoop d), o := { t.o with acks := t.o.acks + 1 } }
  else if a % 128 = 0 ∧ 128 < bs.length ∧ bs.length < 256 then
    sFrame c (sFrame c t a (bs.take 128) (pp.take 1)) (a + 128) (bs.drop 128) (pp.drop 1)
  else sFrame c t a bs pp

/-- A run that stands is written, and its elements count as written. -/
def sFlush (c : Nat) (t : Sst) : Sst :=
  if t.h.pack = [] || t.err.isSome then t
  else
    let t := sWriteRun c t
    if t.err.isSome then t else { t with h := { t.h with owed := [], done := bump t.h.done t.h.owed.length } }

/-- Bytes a run may hold from its address: to the end of its block, or two whole blocks to another device. -/
def runMax (d : Desc) (a : Nat) : Nat := if dAsp d = 2 ∧ a % 128 = 0 then 256 else 128 - a % 128

/-- Bytes to be written at an address join the run they continue, or begin a new one. -/
def sRun (c : Nat) (t : Sst) (a : Nat) (bs : List Byte) (poison : Bool) : Sst :=
  let po := poison || t.h.descPois
  let fits := t.h.pack ≠ [] ∧ a = t.h.packAt + t.h.pack.length ∧ t.h.pack.length + bs.length ≤ runMax t.h.desc t.h.packAt
  let t := if fits then t else sFlush c t
  let at0 := if fits then t.h.packAt else a
  let i := a / 128 - at0 / 128
  let pp := if i < t.h.packPois.length then setAt t.h.packPois i (t.h.packPois.getD i false || po)
    else t.h.packPois ++ [po]
  { t with h := { t.h with pack := t.h.pack ++ bs, packPois := pp, packAt := at0 } }

/-- n bytes from the source: the Ledge, or the popped entry, popping the next one when it has fewer left (R88). None: the
queue is empty. -/
def sSource (c n : Nat) : Nat → Sst → Sst × Option (List Byte × Bool)
  | 0, t => (t, none)
  | f + 1, t =>
    match opnd (srcA t.o.pkt) with
    | .queue q =>
      if n ≤ t.h.src.length then
        ({ t with h := { t.h with src := t.h.src.drop n } }, some (t.h.src.take n, t.h.srcPois))
      else
        match (getQueue (getCrag t.w c) q).ents with
        | [] => (t, none)
        | e :: _ =>
          sSource c n f { t with w := setCrag t.w c (qPop (getCrag t.w c) q),
                                 h := { t.h with src := e.bytes.take 128, srcPois := e.poison } }
    | _ =>
      match opRead (getCrag t.w c) t.o.pkt (opndLedge (srcA t.o.pkt) + t.h.ledgeAt) n with
      | .error e => (t.fail c e, none)
      | .ok r => ({ t with h := { t.h with ledgeAt := t.h.ledgeAt + n } }, some r)

/-- One whole entry, as a compressed write pops them (R92): 128 bytes, or a 128 B block of the Ledge (log entry 28). -/
def sEntry (c : Nat) (t : Sst) : Sst × Option (List Byte × Bool) :=
  match opnd (srcA t.o.pkt) with
  | .queue q =>
    match (getQueue (getCrag t.w c) q).ents with
    | [] => (t, none)
    | e :: _ => ({ t with w := setCrag t.w c (qPop (getCrag t.w c) q) }, some (entryBytes e, e.poison))
  | _ => sSource c 128 1 t

/-- The pump's outcome at an address that the host has not translated yet: the request, once what was gathered is out. -/
def sWaitPage (c : Nat) (t : Sst) (a : Nat) : Sst :=
  let t := sFlush c t
  { t with w := askHost t.w c t.o.n (.atsRequest (pasidOf t.w c) (hostPage a)), h := { t.h with state := 1 } }

def needsPage (t : Sst) (a : Nat) : Bool := dAsp t.h.desc = 1 && !isStandby t.w && !decide (hostPage a ∈ t.h.pages)

/-- The source queue is empty. What was gathered is written; a run to another device waits, since its two full blocks make
one frame (R459). -/
def sWaitQueue (c : Nat) (t : Sst) : Sst :=
  let t := if dAsp t.h.desc = 2 then t else sFlush c t
  if t.err.isSome then t else { t with h := { t.h with state := 2 } }

/-- A write stream has issued its last write: it waits for the acknowledgements, for which a zero-length read follows writes to the host
(R85, R447; log entry 156: to its last element's address). -/
def sIssued (c : Nat) (t : Sst) : Sst :=
  if t.o.acks = 0 then { t with o := { t.o with stage := .done } }
  else if dAsp t.h.desc = 1 && hostTakes t.w then
    { t with w := askHost t.w c t.o.n (.hostRead (pasidOf t.w c) t.h.cur 0 (dNosnoop t.h.desc)), o := { t.o with stage := .acking } }
  else { t with o := { t.o with stage := .acking } }

/-- A write stream goes on until it waits for something (R85, R88, R92, R110). -/
def writePump (c : Nat) : Nat → Sst → Sst
  | 0, t => t
  | n + 1, t =>
    let d := t.h.desc
    if t.err.isSome then t
    else if dTotal d ≤ t.h.next then
      let t := sFlush c { t with h := { t.h with state := 1 } }
      if t.err.isSome then t else sIssued c t
    else if dCmp d then
      let t := arm c t
      if !t.h.tileIn then
        match sEntry c t with
        | (t, none) => sWaitQueue c t
        | (t, some (bs, po)) =>
          let hv := leNat (bs.take 16)
          writePump c n { t with h := { t.h with
            tileIn := true, hdr := BitVec.ofNat 128 hv, hdrPois := po, blks := hdrCount hv, blk := 0 } }
      else if t.h.blk < t.h.blks then
        let a := (dIdxBase d + 128 * (t.h.storePos + t.h.blk)) % 2 ^ 48
        if needsPage t a then sWaitPage c { t with h := { t.h with cur := a } } a
        else
          match sEntry c t with
          | (t, none) => sWaitQueue c t
          | (t, some (bs, po)) => writePump c n (sRun c { t with h := { t.h with blk := t.h.blk + 1 } } a bs po)
      else if needsPage t t.h.cur then sWaitPage c t t.h.cur
      else
        let hv := natLe 16 (setBits t.h.hdr.toNat 64 32 t.h.storePos)
        let pos := t.h.storePos + t.h.blks
        let t := sRun c t t.h.cur hv t.h.hdrPois
        writePump c n (tileDone { t with h := { t.h with storePos := pos, tileIn := false } })
    else
      let t := arm c t
      if t.err.isSome then t
      else if needsPage t t.h.cur && !idxPoisoned t.h then sWaitPage c t t.h.cur
      else
        match sSource c (dEsz d) 34 t with
        | (t, none) => sWaitQueue c t
        | (t, some (bs, po)) =>
          if idxPoisoned t.h then
            let t := strmPoison c t (idxBlock t.h)
            writePump c n { t with h := { t.h with next := t.h.next + 1 } }
          else
            let t := sRun c t t.h.cur bs po
            writePump c n { t with h := { t.h with next := t.h.next + 1, owed := t.h.owed ++ [(t.h.next, t.h.cur)] },
                                   o := { t.o with count := t.o.count + 1 } }

/-- Steps a pump can take at most: every element, and in a compressed stream every block of every tile. -/
def pumpFuel (d : Desc) : Nat := (dTotal d + 1) * (if dCmp d then 65540 else 2) + 2

def pump (c : Nat) (t : Sst) : Sst :=
  if opcOf t.o.pkt = 0x11 then writePump c (pumpFuel t.h.desc) t else readPump c (pumpFuel t.h.desc) t

/-! ## Start -/

/-- Earlier stream ops of the Crag that have not completed (ORDER). -/
def streamsBefore (x : Crag) (n : Nat) : Bool := (earlier x n).any fun e => isStream (opcOf e.pkt)

/-- Whether a channel is free for an op. -/
def chanFree (x : Crag) (o : Op) : Bool :=
  (earlier x o.n).all fun e => !(isStream (opcOf e.pkt) && strmCh e.pkt = strmCh o.pkt)

/-- A stream op starts: it checks its descriptor (R89), then begins to move data or joins a multicast (R83, R106). A bad descriptor's op
stands in its channel, at element 0, when the party stops. -/
def strmBegin (w : Work) (c : Nat) (o : Op) (h : Chan) : Work :=
  if descBad h.desc (opcOf o.pkt = 0x12) (opnd (dstOf o.pkt)).isLedge then
    cragFault (setCrag w c (setChan (getCrag w c) (strmCh o.pkt) h)) c 0x08 (ledgeWrap (strmDesc o.pkt) + seqOf o.pkt * 2 ^ 20)
  else
  let x := getCrag w c
  let w := setCrag w c (startSeq x o)
  let h := { h with state := 1, pos := [], faultVa := 0, idxPos := 0 }
  let o := { o with epoch := x.epoch, posts := dPost h.desc }
  if opcOf o.pkt = 0x12 then
    let g := fld o.pkt 146 6
    let ms := mcastMembers w o
    let w := { w with mcast := Tab.set (fun _ => none) w.mcast g (some (ms ++ [(c, o.n)])) }
    setCrag w c (setChan (setOp (getCrag w c) { o with stage := .member }) (strmCh o.pkt) { h with state := 4 })
  else sClose c (pump c { w := w, o := { o with stage := .reading }, h := h, err := none })

/-- A multicast group that an op may join: free, or gathering the members of the same multicast, which are the ops of one packet on one
pass of the loops (R107). -/
def groupOpen (w : Work) (c : Nat) (o : Op) : Bool :=
  (mcastMembers w o).all fun m => m.1 ≠ c &&
    match findOp (getCrag w m.1) m.2 with
    | some q => q.stage = .member && decide (q.sumTag = o.sumTag) && decide (q.sumPass = o.sumPass)
    | none => false

/-- What a stream that holds its channel still waits for before it starts: earlier streams under ORDER, or a multicast's busy group; the
CH_STATE.STATE of that wait (Table 3.11; log entry 146: 1 under ORDER), none when it may start. -/
def startWait (w : Work) (c : Nat) (o : Op) (d : Desc) : Option Nat :=
  if dOrder d && streamsBefore (getCrag w c) o.n then some 1
  else if opcOf o.pkt = 0x12 && !groupOpen w c o then some 4
  else none

/-- STREAM.RD, STREAM.WR or STREAM.MCAST takes its channel and copies its descriptor; after the waits of ORDER and of a multicast's busy
group it starts (R83, R84, R107). A multicast that waits for its group holds its channel (log entry 146). -/
def streamStart (opc : Nat) (w : Work) (c n : Nat) : Work :=
  let x := getCrag w c
  match findOp x n with
  | none => w
  | some o =>
    if opcOf o.pkt ≠ opc then w
    else if o.stage = .ordered then
      let h := getChan x (strmCh o.pkt)
      if x.fe.frozen || !canRun w (tenOfCrag w c) then w
      else
        match startWait w c o h.desc with
        | some k => setCrag w c (setChan x (strmCh o.pkt) { h with state := k })
        | none => strmBegin w c o h
    else if !startable w c o || !chanFree x o then w
    else
      match opRead x o.pkt (strmDesc o.pkt) 64 with
      | .error e => opFault w c e
      | .ok (bs, po) =>
        let d : Desc := BitVec.ofNat 512 (leNat bs)
        let old := getChan x (strmCh o.pkt)
        let h := { Chan.reset with
          state := 1, opc := BitVec.ofNat 8 opc, seq := BitVec.ofNat 8 (seqOf o.pkt), op := n, desc := d, descPois := po
          pos := old.pos, faultVa := old.faultVa, idxPos := old.idxPos }
        match startWait w c o d with
        | some k => setCrag w c (setChan (setOp x { o with stage := .ordered }) (strmCh o.pkt) { h with state := k })
        | none => strmBegin w c o h

def execStreamRd (c n : Nat) (s : State) : Res := onCrag (.streamRd c n) c s fun w => streamStart 0x10 w c n
def execStreamWr (c n : Nat) (s : State) : Res := onCrag (.streamWr c n) c s fun w => streamStart 0x11 w c n
def execStreamMcast (c n : Nat) (s : State) : Res := onCrag (.streamMcast c n) c s fun w => streamStart 0x12 w c n

/-! ## What a stream waits for -/

/-- A started stream op that is at work, on a Crag that is not frozen. -/
def strmAt (w : Work) (c n : Nat) : Option (Op × Chan) :=
  let x := getCrag w c
  match findOp x n with
  | none => none
  | some o => if x.fe.frozen || !isStream (opcOf o.pkt) || o.stage ≠ .reading then none else some (o, getChan x (strmCh o.pkt))

/-- The multicast ends: every member's op has its data (R106), the group is free. -/
def mcastEnd (w : Work) (o : Op) : Work :=
  let g := fld o.pkt 146 6
  let ms := mcastMembers w o
  let w := ms.foldl (fun w m =>
    match findOp (getCrag w m.1) m.2 with
    | some q => setCrag w m.1 (setOp (getCrag w m.1) { q with stage := .done, count := o.count })
    | none => w) w
  { w with mcast := Tab.set (fun _ => none) w.mcast g none }

/-- A stream goes on from a state it waited in. -/
def strmGo (c : Nat) (t : Sst) : Work :=
  let t := pump c t
  let w := sClose c t
  if opcOf t.o.pkt = 0x12 ∧ t.o.stage = .done ∧ t.err.isNone then mcastEnd w t.o else w

/-- A block of device memory returns (R90). -/
def streamReturn (w : Work) (c n : Nat) : Work :=
  match strmAt w c n with
  | none => w
  | some (o, h) =>
    if dAsp h.desc ≠ 0 || opcOf o.pkt = 0x11 || o.outQ ≠ [] || dTotal h.desc ≤ h.next then w
    else
      match vRead w (.crag c) (strmReq w c h.desc) (readBlock h) 128 with
      | (w, _, _, some _) => sClose c { w := w, o := o, h := h, err := some ⟨0x07, h.cur, none⟩ }
      | (w, bs, po, none) => strmGo c (sTake c { w := w, o := o, h := h, err := none } bs po)

def execStreamReadReturn (c n : Nat) (s : State) : Res := onCrag (.streamReadReturn c n) c s fun w => streamReturn w c n

/-- A queue that a stream waited on has an entry or a slot (R78). -/
def streamQueue (w : Work) (c n : Nat) : Work :=
  match strmAt w c n with
  | none => w
  | some (o, h) => if h.state = 2 then strmGo c { w := w, o := o, h := h, err := none } else w

/-- The source of a multicast begins to fetch when every member is ready (R106). -/
def mcastFetch (w : Work) (g : Nat) : Work :=
  match Tab.get (fun _ => none) w.mcast g with
  | none => w
  | some ms =>
    let src := (ms.find? fun m => match findOp (getCrag w m.1) m.2 with
      | some o => decide (fld o.pkt 152 8 = m.1) && decide (o.stage = .member)
      | none => false)
    match src with
    | none => w
    | some (c, n) =>
      match findOp (getCrag w c) n with
      | none => w
      | some o =>
        if (getCrag w c).fe.frozen || !(o.mcSet.all fun k => ms.any fun m => m.1 = k) then w
        else
          let h := getChan (getCrag w c) (strmCh o.pkt)
          strmGo c { w := w, o := { o with stage := .reading }, h := { h with state := 1 }, err := none }

def execMcastFetchStart (g : Nat) (s : State) : Res :=
  if g < 64 then onMem (.mcastFetchStart g) s fun w => mcastFetch w g else .refused (.noSuchUnit "multicast group" g)

/-! ## Host memory -/

/-- A channel's ASP 1 op, on a Crag that is not frozen. -/
def hostChan (w : Work) (c ch : Nat) : Option (Op × Chan) :=
  let h := getChan (getCrag w c) ch
  match strmAt w c h.op with
  | some (o, g) => if strmCh o.pkt = ch ∧ dAsp g.desc = 1 ∧ !isStandby w then some (o, g) else none
  | none => none

/-- Address that an ASP 1 stream's next access needs. -/
def hostNeed (o : Op) (h : Chan) : Nat := if opcOf o.pkt = 0x11 then h.cur else readBlock h

/-- A read into the Ledge that stops before an element writes the elements before it (R113). -/
def sPart (c : Nat) (t : Sst) : Sst :=
  if t.h.pack = [] || opcOf t.o.pkt = 0x11 || !(opnd (dstOf t.o.pkt)).isLedge then t
  else
    let t := sPut c t t.h.pack (t.h.packPois.any id) false
    sSettle { t with h := { t.h with pack := [], packPois := [] } }

/-- An ATS translation arrives (R112, R113). -/
def chanAts (w : Work) (c ch : Nat) (present : Bool) : Work :=
  match hostChan w c ch with
  | none => w
  | some (o, h) =>
    let a := hostNeed o h
    if h.state ≠ 1 || h.asked || hostPage a ∈ h.pages || dTotal h.desc ≤ h.next then w
    else if present then
      let w := roomForPage w
      let h := getChan (getCrag w c) ch
      let h := { h with pages := h.pages ++ [hostPage a] }
      strmGo c { w := w, o := o, h := h, err := none }
    else
      let t := sPart c { w := w, o := o, h := h, err := none }
      if t.err.isSome then sClose c t
      else
        sClose c { t with w := askPage t.w (.pageRequest (pasidOf w c) a)
                          h := { recordAt t.h t.h.next t.h.cur with state := 3, since := w.now } }

/-- A failed page request (R114, R449). -/
def chanPageFail (w : Work) (c ch : Nat) : Work :=
  match hostChan w c ch with
  | none => w
  | some (_, h) =>
    if h.state ≠ 3 then w
    else
      let w := setCrag { w with priFail := true } c (setChan (getCrag w c) ch { h with pfFail := true })
      cragFault w c 0x09 h.faultVa.toNat

/-- A PRI response (R114): the page is translated again. -/
def chanPageAnswer (w : Work) (c ch : Nat) (ok : Bool) : Work :=
  if !ok then chanPageFail w c ch
  else
    match hostChan w c ch with
    | none => w
    | some (o, h) =>
      if h.state ≠ 3 then w
      else
        let w := askHost w c o.n (.atsRequest (pasidOf w c) (hostPage (hostNeed o h)))
        setCrag w c (setChan (getCrag w c) ch { h with state := 1 })

/-- Whether a page request made at a time has waited PriTimeout (R449). -/
def priDue (w : Work) (since : W64) : Bool := decide (since.toNat + od w 0x1307 ≤ w.now.toNat)

/-- No page-request response within PriTimeout (R114, R449); before that time nothing happens. -/
def chanPriTimeout (w : Work) (c ch : Nat) : Work :=
  match hostChan w c ch with
  | none => w
  | some (_, h) => if priDue w h.since then chanPageFail w c ch else w

/-- A stream that has a host read outstanding. -/
def hostReading (w : Work) (c n : Nat) : Option (Op × Chan) :=
  match strmAt w c n with
  | some (o, h) =>
    if dAsp h.desc = 1 ∧ opcOf o.pkt = 0x10 ∧ h.asked ∧ !isStandby w then some (o, h) else none
  | none => none

/-- A device read of host memory ends in an error (R448). -/
def strmReadError (w : Work) (c n : Nat) : Work :=
  match hostReading w c n with
  | none => w
  | some (o, h) =>
    let w := raise { w with cplErr := true } srcPcie 0x59 (tenOfCrag w c) (readBlock h)
    strmGo c (sHostData c { w := w, o := o, h := h, err := none } (zeros 128) true)

/-- HOST_EP of a poisoned completion: it writes no device address, so the ADDR of its message is a free value (log entry
4). -/
def epCompletion (w : Work) (c : Nat) : Work :=
  let (v, w) := freeVal w
  raise { w with epRx := true } srcPcie 0x58 (tenOfCrag w c) (fld v 0 48)

/-- A completion of a device read of host memory (R448). -/
def strmReadData (w : Work) (c n : Nat) (st : CplStatus) (data : List Byte) (poisoned : Bool) : Work :=
  if st = .error then strmReadError w c n
  else
    match hostReading w c n with
    | none => w
    | some (o, h) =>
      let w := if poisoned then epCompletion w c else w
      strmGo c (sHostData c { w := w, o := o, h := h, err := none } data poisoned)

/-- Every stream op of the device: Crag and dispatch number. -/
def allStreams (w : Work) : List (Nat × Nat) :=
  w.crags.flatMap fun e => (e.2.ops.filter fun o => isStream (opcOf o.pkt)).map fun o => (e.1, o.n)

/-- Streams that waited for forwarded data go on through this device's own port (R492). -/
def resumeHost (w : Work) : Work :=
  (allStreams w).foldl (fun w e =>
    match strmAt w e.1 e.2 with
    | none => w
    | some (o, h) =>
      if dAsp h.desc = 1 && o.outQ = [] then strmGo e.1 { w := w, o := o, h := h, err := none } else w) w

/-- Forwarded data reaches the standby's channels (R479). -/
def fwdArrive (w : Work) (c ch : Nat) (blocks : List (List Byte × Bool)) : Work :=
  let w := { w with fwdData := w.fwdData ++ blocks.map fun b => (c, ch, b.1, b.2) }
  let h := getChan (getCrag w c) ch
  match strmAt w c h.op with
  | none => w
  | some (o, g) =>
    if strmCh o.pkt = ch && dAsp g.desc = 1 && o.outQ = [] && opcOf o.pkt = 0x10 then
      strmGo c { w := w, o := o, h := g, err := none }
    else w

/-! ## Other devices -/

/-- Remote read data reaches a stream (R468): poisoned zeros for a failed one. -/
def strmRemote (w : Work) (c n : Nat) (data : List Byte) (poison : Bool) : Work :=
  match strmAt w c n with
  | none => w
  | some (o, h) =>
    if dAsp h.desc = 2 ∧ opcOf o.pkt = 0x10 ∧ o.outQ = [] ∧ h.next < dTotal h.desc then
      let w := meterRidge w (tenOfCrag w c) 128
      strmGo c (sTake c { w := w, o := o, h := h, err := none } data poison)
    else w

/-- The zero-length read that followed an op's writes to the host completes: it acknowledges them all (R447). Before it is issued nothing
does. -/
def hostAcked (w : Work) (c n : Nat) : Work :=
  match findOp (getCrag w c) n with
  | some o => if o.stage = .acking then setCrag w c (setOp (getCrag w c) { o with acks := 0, stage := .done }) else w
  | none => w

/-- One write of an op is acknowledged (R23, R85). -/
def opAck (w : Work) (c n : Nat) : Work :=
  let x := getCrag w c
  match findOp x n with
  | none => w
  | some o =>
    if o.acks = 0 then w
    else
      let o := { o with acks := o.acks - 1 }
      setCrag w c (setOp x { o with stage := if o.acks = 0 ∧ o.stage = .acking then .done else o.stage })

end Sys2Proof.Machine
end

