-- ==== Sys2Proof/Machine/Engine.lean ====
section
/-! DEFINITION. Macro-ops of the engines: starting (R37, R54, R69), taking queue entries (R78 to R80), running, pushing results,
completing (R56), SUMMARY (R64, R65), the scheduled region's ops (R98), and the events that move an op on. -/

namespace Sys2Proof.Machine

/-! ## Queue inputs -/

def qOf (f : Nat) : Option Nat :=
  match opnd f with
  | .queue q => some q
  | _ => none

/-- An input slot that still needs entries: its key and its queue. Keys: 0 SRCA, 1 SRCB, 2 + 3 i + k operand k of member i of a chain. -/
structure Need where
  key  : Nat
  q    : Nat

def need1 (key f : Nat) (short : Bool) : List Need :=
  match qOf f with
  | some q => if short then [⟨key, q⟩] else []
  | none => []

/-- Entries of B's values in 2:4 form. -/
def valNeed (p : Packet) : Nat := valRows p * (rowBytes (fB (fcwOf p)) (valCols p) / 128)

/-- Whether an op walks its input step by step: an op of the gather engine or an EUPD its list, element by element; a vector chain its tensor,
strip by strip (R193). -/
def walks (o : Nat) : Bool := isGather o || isEmb o || o = 0x40 || o = 0x50 || o = 0x58

/-- Entries that the next member of a chain lacks for its part of the strip (R188, R193): its operands in order (log entry 30). -/
def vecNeeds (o : Op) : List Need :=
  if vecOver o then []
  else
    let p := o.packets.getD o.vec.mem 0
    (List.range 3).flatMap fun k =>
      need1 (2 + 3 * o.vec.mem + k) (vSrc p k)
        (decide ((Tab.get (fun _ => []) o.inV (3 * o.vec.mem + k)).length < stripEnts p o.vec.strip))

/-- Whether a walking op lacks its next input element. -/
def walkNeedA (o : Op) : Bool :=
  let esz := if isGather (opcOf o.pkt) then gElem o.pkt o.desc else embIdx o.pkt
  (nextElem esz o.inA).isNone

/-- Whether an EUPD lacks the value or destination of its next index. -/
def eupdNeedB (o : Op) : Bool :=
  if opcOf o.pkt = 0x7E then (nextElem 8 o.inB).isNone else decide (o.inB.length < eupdValB o.desc / 128)

/-- The slots of an op that still need entries (R80, R88, R121, R156, R188). -/
def needs (o : Op) : List Need :=
  let p := o.pkt
  let c := opcOf p
  let a := need1 0 (srcA p)
  let b := need1 1 (srcB p)
  if c = 0x20 ∨ c = 0x30 ∨ c = 0x31 then
    if fabEmpty p then [] else a (o.inA.length < fabNeedA p) ++ b (o.inB.length < fabNeedB p)
  else if c = 0x28 ∨ c = 0x2A then
    if fabEmpty p then []
    else a (packedNeed (smTiles p) o.inA ≠ 0) ++ b (o.inB.length < if c = 0x28 then fabNeedB p else valNeed p)
  else if c = 0x29 then
    if fabEmpty p then [] else a (o.inA.length < fabNeedA p) ++ b (o.inB.length < valNeed p)
  else if c = 0x38 then a (o.inA.length < 64 * gmTiles p)
  else if c = 0x39 then a (packedNeed (gmTiles p) o.inA ≠ 0)
  else if isChainOp p then vecNeeds o
  else if walks c then a (walkNeedA o) ++ (if isEupd c then b (eupdNeedB o) else [])
  else if c = 0x85 then a (o.inA.length = 0 && o.needA ≠ 0)
  else []

def giveEntry (o : Op) (key : Nat) (e : Entry) : Op :=
  if key = 0 then { o with inA := o.inA ++ [e] }
  else if key = 1 then { o with inB := o.inB ++ [e] }
  else { o with inV := Tab.set (fun _ => []) o.inV (key - 2) (Tab.get (fun _ => []) o.inV (key - 2) ++ [e]) }

/-- Pops entries that the op needs, while there are any. At most 512 entries stand in a Crag's queues. -/
def takeInputs : Nat → Crag → Op → Crag × Op
  | 0, x, o => (x, o)
  | f + 1, x, o =>
    match (needs o).find? fun n => !qEmpty x n.q with
    | none => (x, o)
    | some n =>
      match (getQueue x n.q).ents with
      | [] => (x, o)
      | e :: _ => takeInputs f (qPop x n.q) (giveEntry o n.key e)

/-! ## Running -/

/-- An op of the fabric or the Gather-and-Merge Engine over its inputs, or VOP.FLAGS. -/
def engineRun (w : Work) (c : Nat) (o : Op) : Except OpErr EngOut :=
  let p := o.pkt
  match opcOf p with
  | 0x20 => fabRun w c o
  | 0x30 => fabRun w c o
  | 0x31 => fabRun w c o
  | 0x28 => smmaARun w c o
  | 0x29 => smmaWRun w c o
  | 0x2A => smmaARun w c o
  | 0x2C => smmaPruneRun w c o
  | 0x38 => gmergePackRun w c o
  | 0x39 => gmergeUnpackRun w c o
  | 0x3A => gmergePack24Run w c o
  | _ => .ok (vopFlagsRun w c o)

/-- State shown by an engine's register (Tables 5.11, 6.7, 7.11, 8.9): run for work, wait for a queue. States that an op passes through
within one command, as CRAG_GSTAT's building of lane lists, stand in no state between commands (log entry 129). -/
def engineState (x : Crag) (o : Op) (waiting : Bool) : Crag :=
  let c := opcOf o.pkt
  let n := if waiting then 3 else 1
  let taking := waiting && decide (o.stage = .gathering)
  if c = 0x2C then { x with ex := { x.ex with gstate := 5 } }
  else if smmaGm o.pkt then { x with ex := { x.ex with gstate := if taking then 1 else 3 } }
  else if 0x38 ≤ c ∧ c ≤ 0x3F then { x with ex := { x.ex with gstate := 4 } }
  else if c = 0x4F then x
  else if isVector c then { x with ex := { x.ex with vstate := n } }
  else if isGather c then { x with ac := { x.ac with gthState := n } }
  else if 0x70 ≤ c ∧ c ≤ 0x7F then { x with ac := { x.ac with embState := n } }
  else x

/-! ## Tasks that an op puts (R227, R292) -/

/-- Puts one task, or says that it waits or that its flow is out of range. -/
inductive PutRes where
  | put (w : Work)
  | waits
  | range

def putOne (w : Work) (t : Task) : PutRes :=
  if !ownsFlow w t.ten t.flow then .range
  else if putWaits w t then .waits
  else
    let (n, w) := takeSeq w
    .put (putTask w { t with seq := n })

/-- Pushes results; then the op is done. -/
def drain (w : Work) (c : Nat) (o : Op) : Work :=
  let (x, left) := pushMany (getCrag w c) o.outQ
  let o := { o with outQ := left, stage := if left = [] then .done else .draining }
  setCrag w c (setOp (engineState x o (left ≠ [])) o)

/-! ## Ops that walk their input lists -/

/-- The registers of the gather engine as an op leaves them when it waits or stops (Tables 7.10, 7.11, 8.9). -/
def walkShow (x : Crag) (o : Op) (state : Nat) : Crag :=
  let reading := match o.walk.want with
    | some (.block _ _) => decide (o.stage = .reading)
    | _ => false
  if isVector (opcOf o.pkt) then { x with ex := { x.ex with vstate := state } }
  else if isGather (opcOf o.pkt) then
    { x with ac := { x.ac with gthState := state, gin := BitVec.ofNat 32 o.walk.pos, gout := BitVec.ofNat 32 (goutOf o),
                               goutst := b2n reading } }
  else
    let ac := { x.ac with embState := state, embOpc := BitVec.ofNat 8 (opcOf o.pkt), embSeq := BitVec.ofNat 8 (seqOf o.pkt) }
    { x with ac := if isEupd (opcOf o.pkt) then ac else { ac with goutst := b2n reading } }

/-- The first put that an op still has to make (R227, R292): it is made, and the writes that follow it with it; or it waits; or its flow is
out of range. -/
def putStep (w : Work) (c : Nat) (o : Op) (l : PutLeft) (ls : List PutLeft) : WalkRes :=
  match putOne w l.task with
  | .range => .fail w o ⟨0x23, l.task.flow, none⟩
  | .waits => .rest w { o with stage := .waiting } 4
  | .put w =>
    match noteWrites o.pkt (getCrag w c) l.notes with
    | .error e => .fail w { o with puts := ls } e
    | .ok x => .go (setCrag w c x) { o with puts := ls }

/-- One step of a vector chain: the next member's part of the strip, once its queue operands have supplied it (R193). -/
def vecStep (w : Work) (c : Nat) (o : Op) : WalkRes :=
  if vecOver o then
    let (x, o) := vecEnd (getCrag w c) o
    .rest (setCrag w c x) o 1
  else
    let (x, o) := takeInputs 513 (getCrag w c) o
    let w := setCrag w c x
    if (needs o).length ≠ 0 then .rest w { o with stage := .gathering } 3
    else
      match vecStrip c x o with
      | .error e => .fail w o e
      | .ok (x, o) => .go (setCrag w c x) o

/-- One step of an op that walks its input: puts and results that stand first, then the next element or strip. -/
def walkStep (w : Work) (c : Nat) (o : Op) : WalkRes :=
  match o.puts with
  | l :: ls => putStep w c o l ls
  | [] =>
    if o.outQ ≠ [] then
      let (x, left) := pushMany (getCrag w c) o.outQ
      let o := { o with outQ := left }
      if left = [] then .go (setCrag w c x) o else .rest (setCrag w c x) { o with stage := .draining } 3
    else if isVector (opcOf o.pkt) then vecStep w c o
    else if isGather (opcOf o.pkt) then gatherStep w c o
    else if isEupd (opcOf o.pkt) then eupdStep w c o
    else if opcOf o.pkt = 0x71 then prefetchStep w c o
    else poolStep w c o

/-- What a step came to, as the state shows it: an error leaves what the op did before it (R57). -/
def walkRest (w : Work) (c : Nat) (o : Op) (state : Nat) : Work := setCrag w c (walkShow (setOp (getCrag w c) o) o state)

def walkFail (w : Work) (c : Nat) (o : Op) (e : OpErr) : Work :=
  let x := e.left.getD (getCrag w c)
  cragFault (setCrag w c (walkShow (setOp x o) o 1)) c e.kind e.addr

/-- Steps one after another, until the op waits or has done everything. -/
def walkGo : Nat → Work → Nat → Op → Work
  | 0, w, c, o => walkRest w c o 1
  | n + 1, w, c, o =>
    match walkStep w c o with
    | .go w o => walkGo n w c o
    | .rest w o st => walkRest w c o st
    | .fail w o e => walkFail w c o e

/-- More steps than any op takes: every element, block, row and put of it is one. -/
def walkFuel : Nat := 2 ^ 44

/-- A walking op goes on. -/
def walkOn (w : Work) (c : Nat) (o : Op) : Work := walkGo walkFuel w c { o with stage := .gathering }

/-- TASK.PUT over its entries (R292): each entry is accepted, waits, or is out of range. -/
def taskPutGo (c : Nat) : Nat → Work → Op → Work
  | 0, w, o => setCrag w c (setOp (getCrag w c) { o with needA := 0, stage := .done })
  | n + 1, w, o =>
    let t := tenOfCrag w c
    let o := { o with needA := n + 1 }
    let got : Except OpErr (Option (Crag × Op × List Byte)) :=
      match o.inA with
      | e :: _ => .ok (some (getCrag w c, o, entryBytes e))
      | [] =>
        match opnd (srcA o.pkt) with
        | .queue q =>
          match (getQueue (getCrag w c) q).ents with
          | [] => .ok none
          | e :: _ => .ok (some (qPop (getCrag w c) q, { o with inA := [e] }, entryBytes e))
        | _ =>
          let a := opndLedge (srcA o.pkt) + 128 * (fld o.pkt 128 16 - (n + 1))
          match opRead (getCrag w c) o.pkt a 128 with
          | .error e => .error e
          | .ok (bs, _) => .ok (some (getCrag w c, o, bs))
    match got with
    | .error e => opFault w c e
    | .ok none => setCrag w c (setOp (getCrag w c) { o with stage := .gathering })
    | .ok (some (x, o, bs)) =>
      let w := setCrag w c x
      let k := taskOf bs t 0 c o.unit
      match putOne w k with
      | .range => cragFault (setCrag w c (setOp (getCrag w c) o)) c 0x23 k.flow
      | .waits => setCrag w c (setOp (getCrag w c) { o with stage := .waiting })
      | .put w => taskPutGo c n w { o with inA := [], count := o.count + 1 }

/-- An op that gathers takes what is there, and runs once it has everything. -/
def gatherGo (w : Work) (c : Nat) (o : Op) : Work :=
  if opcOf o.pkt = 0x85 then taskPutGo c o.needA w o
  else if walks (opcOf o.pkt) then walkOn w c o
  else
    let (x, o) := takeInputs 513 (getCrag w c) { o with stage := .gathering }
    let short := (needs o).length ≠ 0
    let x := engineState (setOp x o) o short
    let w := setCrag w c x
    if short then w
    else
      match engineRun w c o with
      | .error e => opFault w c e
      | .ok g =>
        drain (setCrag w c g.crag) c { o with outQ := g.out, count := g.count, cycles := o.cycles + g.cycles, ffl := g.ffl, vfl := g.vfl }

/-- An op that waited for a queue, or for the Scheduler, goes on. -/
def opGo (w : Work) (c n : Nat) : Work :=
  let x := getCrag w c
  match findOp x n with
  | none => w
  | some o =>
    if x.fe.frozen then w
    else if isStream (opcOf o.pkt) then streamQueue w c n
    else
      match o.stage with
      | .gathering => gatherGo w c o
      | .draining => if walks (opcOf o.pkt) then walkOn w c o else drain w c o
      | .waiting => if walks (opcOf o.pkt) then walkOn w c o else if opcOf o.pkt = 0x85 then taskPutGo c o.needA w o else w
      | _ => w

/-- A change of the data plane that happens unless one of its accesses meets a hold. -/
def unlessHeld (f : Work → Work) (w : Work) : Work := let v := f w; if v.hold.isSome && w.hold.isNone then w else v

/-- Puts that waited for the Scheduler, and EUPDs that waited for an Update Unit's hold, are tried again (R259, R292). -/
def retryPuts (w : Work) : Work :=
  let waiting := w.crags.flatMap fun e =>
    (e.2.ops.filter fun o => o.stage = .waiting && (walks (opcOf o.pkt) || opcOf o.pkt = 0x85)).map fun o => (e.1, o.n)
  waiting.foldl (fun w e => unlessHeld (fun w => opGo w e.1 e.2) w) w

/-! ## Starting -/

/-- An engine that the grade leaves out (R69). -/
def absent (w : Work) (p : Packet) : Bool := w.fuses.gradeN && (opcOf p = 0x2C || (0x7A ≤ opcOf p && opcOf p ≤ 0x7C))

/-- ABSENT_UNIT (R69): the op starts and completes, with a count of 0 and nothing done, and stops its party. -/
def absentOp (w : Work) (c : Nat) (o : Op) : Work :=
  let w := finishOp (setCrag w c (startSeq (getCrag w c) o)) c { o with count := 0 }
  cragFault w c 0x05 (opcOf o.pkt * 256 + seqOf o.pkt)

/-- The engine's registers when its op starts (R124, R163, R207, R225, R233, R265). -/
def startRegs (w : Work) (x : Crag) (o : Op) : Crag :=
  let p := o.pkt
  let c := opcOf p
  let opc : BitVec 8 := BitVec.ofNat 8 c
  let seq : BitVec 8 := BitVec.ofNat 8 (seqOf p)
  if 0x28 ≤ c ∧ c ≤ 0x2F then
    let x := if c = 0x2C then x else fabStart x p
    let x := if c = 0x29 then x else { x with ex := { x.ex with gopc := opc, gseq := seq } }
    { x with ex := { x.ex with spth := BitVec.ofNat 7 (od w 0x2310) } }
  else if isFabric c then fabStart x p
  else if 0x38 ≤ c ∧ c ≤ 0x3F then { x with ex := { x.ex with gopc := opc, gseq := seq } }
  else if c = 0x4F then x
  else if isVector c then { x with ex := { x.ex with vopc := opc, vseq := seq, vmembers := o.members.length } }
  else if isGather c then
    let ac := { x.ac with gthOpc := opc, gthSeq := seq, gthPois := false, gin := 0, gout := 0 }
    { x with ac := if c = 0x60 then
        { ac with hubTh := BitVec.ofNat 32 (od w 0x2311), hubSeg := BitVec.ofNat 32 (od w 0x2312) } else ac }
  else if 0x70 ≤ c ∧ c ≤ 0x7F then { x with ac := { x.ac with embOpc := opc, embSeq := seq, embPois := false } }
  else x

/-- The descriptor or table entry that an op reads when it starts. -/
def startDesc (w : Work) (c : Nat) (o : Op) : Work × Except OpErr (Desc × Bool) :=
  let k := opcOf o.pkt
  if isGather k then
    gatherCheck w c o.pkt
  else if isEmb k then embCheck w c o.pkt
  else (w, .ok (0, false))

/-- An op as it starts: the epoch and the tenancy's seed in effect (R135, R389), and the cycles of a reconfiguration, which count with its own
(R139). -/
def begunOp (w : Work) (c : Nat) (o : Op) : Op :=
  let x := getCrag w c
  let recon := if isFabric (opcOf o.pkt) && opcOf o.pkt ≠ 0x2C && !fabEmpty o.pkt then reconfCycles x (fcwOf o.pkt) else 0
  let mems := if isChainOp o.pkt then o.packets.map vmemNew else []
  { o with stage := .gathering, vec := ⟨0, 0, 0, mems⟩, epoch := x.epoch, seed := BitVec.ofNat 64 (od w 0x400D 0 (tenOfCrag w c)), cycles := recon }

/-- The Crag as an op starts on it. -/
def begunWork (w : Work) (c : Nat) (o : Op) : Work := setCrag w c (setOp (startRegs w (startSeq (getCrag w c) o) o) o)

/-- A macro-op of an engine starts (R37, R54, R69). -/
def engineStart (opcs : List Nat) (w : Work) (c n : Nat) : Work :=
  match findOp (getCrag w c) n with
  | none => w
  | some o =>
    if opcOf o.pkt ∉ opcs || !startable w c o then w
    else if absent w o.pkt then absentOp w c o
    else
      let o := begunOp w c o
      let w := begunWork w c o
      match startDesc w c o, hypOf (getCrag w c) o.pkt with
      | (w, .error e), _ => opFault w c e
      | (w, .ok _), .error e => opFault w c e
      | (w, .ok (d, po)), .ok h =>
        let w := if po && walks (opcOf o.pkt) then noteCrag w c o true else w
        gatherGo w c { o with desc := d, descPois := po, hyp := h.1, hypPois := h.2 }

def execMma (c n : Nat) (s : State) : Res := onCrag (.mma c n) c s fun w => engineStart [0x20] w c n
def execSring (c n : Nat) (s : State) : Res := onCrag (.sring c n) c s fun w => engineStart [0x30] w c n
def execSringArg (c n : Nat) (s : State) : Res := onCrag (.sringArg c n) c s fun w => engineStart [0x31] w c n
def execGmergePack (c n : Nat) (s : State) : Res := onCrag (.gmergePack c n) c s fun w => engineStart [0x38] w c n
def execGmergeUnpack (c n : Nat) (s : State) : Res := onCrag (.gmergeUnpack c n) c s fun w => engineStart [0x39] w c n
def execGmergePack24 (c n : Nat) (s : State) : Res := onCrag (.gmergePack24 c n) c s fun w => engineStart [0x3A] w c n
def execSmmaA (c n : Nat) (s : State) : Res := onCrag (.smmaA c n) c s fun w => engineStart [0x28] w c n
def execSmmaW (c n : Nat) (s : State) : Res := onCrag (.smmaW c n) c s fun w => engineStart [0x29] w c n
def execSmmaAw (c n : Nat) (s : State) : Res := onCrag (.smmaAw c n) c s fun w => engineStart [0x2A] w c n
def execSmmaPrune (c n : Nat) (s : State) : Res := onCrag (.smmaPrune c n) c s fun w => engineStart [0x2C] w c n
def execVectorChainStart (c n : Nat) (s : State) : Res := onCrag (.vectorChainStart c n) c s fun w => engineStart [0x40, 0x50, 0x58] w c n
def execGatherCsr (c n : Nat) (ext : Mem) (s : State) : Res := onCrag (.gatherCsr c n ext) c s fun w => engineStart [0x60] w c n
def execGatherCoo (c n : Nat) (ext : Mem) (s : State) : Res := onCrag (.gatherCoo c n ext) c s fun w => engineStart [0x61] w c n
def execGatherSeg (c n : Nat) (ext : Mem) (s : State) : Res := onCrag (.gatherSeg c n ext) c s fun w => engineStart [0x62] w c n
def execSampleU (c n : Nat) (ext : Mem) (s : State) : Res := onCrag (.sampleU c n ext) c s fun w => engineStart [0x68] w c n
def execSampleW (c n : Nat) (ext : Mem) (s : State) : Res := onCrag (.sampleW c n ext) c s fun w => engineStart [0x69] w c n
def execPool (c n : Nat) (ext : Mem) (s : State) : Res := onCrag (.pool c n ext) c s fun w => engineStart [0x70] w c n
def execPoolPrefetch (c n : Nat) (s : State) : Res := onCrag (.poolPrefetch c n) c s fun w => engineStart [0x71] w c n
def execEupdWrite (c n : Nat) (s : State) : Res := onCrag (.eupdWrite c n) c s fun w => engineStart [0x78] w c n
def execEupdAdd (c n : Nat) (s : State) : Res := onCrag (.eupdAdd c n) c s fun w => engineStart [0x79] w c n
def execEupdSgd (c n : Nat) (s : State) : Res := onCrag (.eupdSgd c n) c s fun w => engineStart [0x7A] w c n
def execEupdAdagrad (c n : Nat) (s : State) : Res := onCrag (.eupdAdagrad c n) c s fun w => engineStart [0x7B] w c n
def execEupdAdam (c n : Nat) (s : State) : Res := onCrag (.eupdAdam c n) c s fun w => engineStart [0x7C] w c n
def execEupdMigrate (c n : Nat) (s : State) : Res := onCrag (.eupdMigrate c n) c s fun w => engineStart [0x7E] w c n

/-- No earlier op of the unit is left (R65, R205). -/
def unitDrained (x : Crag) (o : Op) : Bool := (earlier x o.n).all fun e => decide (e.unit ≠ o.unit)

/-- VOP.FLAGS waits for the EU's earlier ops (R205). -/
def vopFlagsStart (w : Work) (c n : Nat) : Work :=
  match findOp (getCrag w c) n with
  | none => w
  | some o => if unitDrained (getCrag w c) o then engineStart [0x4F] w c n else w

def execVopFlags (c n : Nat) (s : State) : Res := onCrag (.vopFlags c n) c s fun w => vopFlagsStart w c n

/-! ## SUMMARY -/

/-- The 32-bit value that a SUMMARY takes, and its poison (Table 2.8, R110). -/
def summaryValue (x : Crag) (c : Nat) (o : Op) : W32 × Bool :=
  let p := o.pkt
  match fld p 136 4 with
  | 0 =>
    let k := 64 * (srcA p % 32)
    (Tab.get (bvD 32) x.vregs k, Tab.get falseD x.vpois k)
  | 1 => (BitVec.ofNat 32 x.ex.vflags.toNat, false)
  | 2 => (o.lidx, false)
  | 3 => (BitVec.ofNat 32 (if o.unit = 0 then x.cntAu else x.cntEu), false)
  | _ => (BitVec.ofNat 32 c, false)

/-- SUMMARY (R65). -/
def summaryStart (w : Work) (c n : Nat) : Work :=
  let x := getCrag w c
  match findOp x n with
  | none => w
  | some o =>
    if opcOf o.pkt ≠ 8 || !startable w c o || !unitDrained x o then w
    else
      let v := summaryValue x c o
      let m := contribOf o.pkt o.sumTag o.sumPass (if o.pred then some v.1 else none) (o.pred && v.2)
      let x := startSeq { x with contrib := x.contrib ++ [m] } o
      setCrag w c (setOp x { o with stage := .done, cycles := 1 })

def execSummary (c n : Nat) (s : State) : Res := onCrag (.summary c n) c s fun w => summaryStart w c n

/-! ## The scheduled region -/

/-- STREAM.REGION arms a region, after the close of the one before (R98). -/
def regionStart (w : Work) (c n : Nat) : Work :=
  let x := getCrag w c
  match findOp x n with
  | none => w
  | some o =>
    if opcOf o.pkt ≠ 0x1C || !startable w c o || (earlier x n).any (fun e => opcOf e.pkt = 0x1D) then w
    else
      let r := { x.region with state := 1, seq := BitVec.ofNat 8 (seqOf o.pkt), limit := BitVec.ofNat 32 (fld o.pkt 160 32),
                               tol := BitVec.ofNat 32 (fld o.pkt 192 32) }
      setCrag w c (setOp (startSeq { x with region := r } o) { o with stage := .done })

def execStreamRegion (c n : Nat) (s : State) : Res := onCrag (.streamRegion c n) c s fun w => regionStart w c n

/-- Scheduled ops dispatched before op n and not completed. -/
def schedBefore (x : Crag) (n : Nat) : Bool := (earlier x n).any fun e => e.packets.any schedOf

/-- STREAM.CLOSE starts, and completes once every earlier scheduled op has (R98). -/
def closeGo (w : Work) (c n : Nat) : Work :=
  let x := getCrag w c
  match findOp x n with
  | none => w
  | some o =>
    if opcOf o.pkt ≠ 0x1D then w
    else
      let w := if startable w c o then setCrag w c (setOp (startSeq x o) { o with stage := .waiting }) else w
      match findOp (getCrag w c) n with
      | none => w
      | some o => if o.stage = .waiting && !(getCrag w c).fe.frozen && !schedBefore (getCrag w c) n then finishOp w c o else w

def execStreamClose (c n : Nat) (s : State) : Res := onCrag (.streamClose c n) c s fun w => closeGo w c n

/-! ## Events -/

/-- MACRO_OP_COMPLETE (R56): an op that has done everything completes. -/
def completeOp (w : Work) (c n : Nat) : Work :=
  let x := getCrag w c
  match findOp x n with
  | none => w
  | some o => if x.fe.frozen || o.stage ≠ .done then w else finishOp w c o

def execMacroOpComplete (c n : Nat) (s : State) : Res := onCrag (.macroOpComplete c n) c s fun w => completeOp w c n

/-! ## What other devices and the host answer -/

/-- An op of the gather engine that waits for an answer, on a Crag that is not frozen. -/
def wanting (w : Work) (c n : Nat) : Option (Op × Want) :=
  match findOp (getCrag w c) n with
  | none => none
  | some o =>
    if (getCrag w c).fe.frozen || !walks (opcOf o.pkt) || o.stage ≠ .reading then none else o.walk.want.map fun v => (o, v)

/-- The Crag's op of the gather engine that waits for an answer; it has one at a time (R244). -/
def wanter (w : Work) (c : Nat) : Option (Op × Want) := (getCrag w c).ops.findSome? fun o => wanting w c o.n

/-- A block reaches the op that asked for it, over the Ridge from the Port die (R208, R256). -/
def blockArrives (w : Work) (c n : Nat) (host : Bool) (bs : List Byte) (poison : Bool) : Work :=
  match wanting w c n with
  | some (o, .block h a) =>
    if h ≠ host then w
    else
      let w := meterRidge w (tenOfCrag w c) 128
      walkOn w c { o with walk := { o.walk with got := o.walk.got ++ [Blk.mk host a bs poison], want := none } }
  | _ => w

/-- Remote read data reaches a stream or an op of the gather engine (R468): poisoned zeros for a failed one. -/
def remoteRead (w : Work) (c n : Nat) (data : List Byte) (poison : Bool) : Work :=
  match findOp (getCrag w c) n with
  | none => w
  | some o => if walks (opcOf o.pkt) then blockArrives w c n false data poison else strmRemote w c n data poison

/-- An op whose accesses through a host page are under way (R449): a read without its completion, or writes not acknowledged. -/
def accessing (w : Work) (c : Nat) (o : Op) : Bool :=
  if isStream (opcOf o.pkt) then
    let h := getChan (getCrag w c) (strmCh o.pkt)
    decide (h.op = o.n) && decide (dAsp h.desc = 1) && o.started && (h.asked || decide (o.acks ≠ 0))
  else match o.walk.want with
    | some (.block true _) => true
    | _ => false

/-- Invalidations complete once no access translated before them is under way (R449). -/
def invalDone (w : Work) : Work :=
  let at_ := fun (e : Nat × Nat) => match findOp (getCrag w e.1) e.2 with
    | some o => accessing w e.1 o
    | none => false
  let l := w.invals.map fun i => { i with ops := i.ops.filter at_ }
  ((l.filter fun i => i.ops = []).foldl (fun w i => emit w (.atsInvalidated i.pasid i.page)) { w with invals := l.filter fun i => i.ops ≠ [] })

/-- An op's access is over. -/
def invalDrop (w : Work) (c n : Nat) : Work :=
  invalDone { w with invals := w.invals.map fun i => { i with ops := i.ops.filter fun e => e ≠ (c, n) } }

/-- A read of a frozen Crag's op is over: what it brings is dropped. -/
def frozenRead (w : Work) (c n : Nat) : Work :=
  let x := getCrag w c
  match findOp x n with
  | some o =>
    if !x.fe.frozen then w
    else if isStream (opcOf o.pkt) then
      let h := getChan x (strmCh o.pkt)
      if h.op = n then setCrag w c (setChan x (strmCh o.pkt) { h with asked := false }) else w
    else match o.walk.want with
      | some (.block true _) => setCrag w c (setOp x { o with walk := { o.walk with want := none } })
      | _ => w
  | none => w

/-- Whether an op holds the translation of a host page. -/
def holdsPage (w : Work) (c : Nat) (o : Op) (page : Nat) : Bool :=
  if isStream (opcOf o.pkt) then
    let h := getChan (getCrag w c) (strmCh o.pkt)
    decide (h.op = o.n) && decide (dAsp h.desc = 1) && decide (page ∈ h.pages)
  else decide (page ∈ o.walk.pages)

def dropPage (w : Work) (c : Nat) (o : Op) (page : Nat) : Work :=
  let x := getCrag w c
  let x := if isStream (opcOf o.pkt) then
      let h := getChan x (strmCh o.pkt)
      setChan x (strmCh o.pkt) { h with pages := h.pages.filter (· ≠ page) }
    else setOp x { o with walk := { o.walk with pages := o.walk.pages.filter (· ≠ page) } }
  setCrag w c x

/-- An ATS invalidation (R449): matching translations are dropped, and the next access to the page asks again; it completes once every
access translated before has. It waits while 32 others are outstanding (R442). -/
def atsInval (w : Work) (pasid page : Nat) : Work :=
  if 32 ≤ w.invals.length then waitFor w .port
  else
  let mine := w.crags.flatMap fun e =>
    (e.2.ops.filter fun o => decide (pasidOf w e.1 = pasid) && holdsPage w e.1 o page).map fun o => (e.1, o)
  let busy := (mine.filter fun e => accessing w e.1 e.2).map fun e => (e.1, e.2.n)
  let w := mine.foldl (fun w e => dropPage w e.1 e.2 page) w
  invalDone { w with invals := w.invals ++ [Inval.mk pasid page busy] }

def execAtsInvalidation (pasid page : Nat) (s : State) : Res :=
  onMem (.atsInvalidation pasid page) s fun w => atsInval w pasid page

/-- An ATS translation arrives: for a channel, or, as number 8, for the gather engine (R112, R256). -/
def atsAnswer (w : Work) (c ch : Nat) (present : Bool) : Work :=
  if ch < 8 then chanAts w c ch present
  else
    match wanter w c with
    | some (o, .ats a) =>
      if present then
        let w := roomForPage w
        match wanter w c with
        | some (o, _) => walkOn w c { o with walk := { o.walk with pages := o.walk.pages ++ [hostPage a], want := none } }
        | none => w
      else
        let w := askPage w (.pageRequest (pasidOf w c) a)
        walkRest w c { o with walk := { o.walk with want := some (.pri a), since := w.now } } 5
    | _ => w

def execAtsTranslationResponse (c ch : Nat) (a : AtsAnswer) (s : State) : Res :=
  onCrag (.atsTranslationResponse c ch a) c s fun w => atsAnswer w c ch (a = .present)

/-- The gather engine's page request failed (R114, R256). -/
def walkPageFail (w : Work) (c : Nat) (a : Nat) : Work := cragFault { w with priFail := true } c 0x09 a

/-- A PRI response: for a channel, or for the gather engine. -/
def pageAnswer (w : Work) (c ch : Nat) (ok : Bool) : Work :=
  if ch < 8 then chanPageAnswer w c ch ok
  else
    match wanter w c with
    | some (o, .pri a) =>
      if ok then walkRest (askHost w c o.n (.atsRequest (pasidOf w c) (hostPage a))) c { o with walk := { o.walk with want := some (.ats a) } } 2
      else walkPageFail w c a
    | _ => w

def execPageRequestResponse (c ch : Nat) (ok : Bool) (s : State) : Res :=
  onCrag (.pageRequestResponse c ch ok) c s fun w => pageAnswer w c ch ok

/-- PRI_TIMEOUT. -/
def priTimeoutOp (w : Work) (c ch : Nat) : Work :=
  if ch < 8 then chanPriTimeout w c ch
  else
    match wanter w c with
    | some (o, .pri a) => if priDue w o.walk.since then walkPageFail w c a else w
    | _ => w

def execPriTimeout (c ch : Nat) (s : State) : Res := onCrag (.priTimeout c ch) c s fun w => priTimeoutOp w c ch

/-- A device read of host memory ends in an error (R448). -/
def hostReadError (w : Work) (c n : Nat) : Work :=
  match wanting w c n with
  | some (_, .block true a) =>
    blockArrives (raise { w with cplErr := true } srcPcie 0x59 (tenOfCrag w c) a) c n true (zeros 128) true
  | _ => strmReadError w c n

/-- A completion of a device read of host memory (R448). -/
def hostReadData (w : Work) (c n : Nat) (st : CplStatus) (data : List Byte) (poisoned : Bool) : Work :=
  match wanting w c n with
  | some _ =>
    if st = .error then hostReadError w c n
    else blockArrives (if poisoned then epCompletion w c else w) c n true data poisoned
  | none => strmReadData w c n st data poisoned

def execHostReadCompletion (c n : Nat) (st : CplStatus) (data : List Byte) (poisoned : Bool) (s : State) : Res :=
  onCrag (.hostReadCompletion c n st data poisoned) c s fun w =>
    hostReadData (invalDrop (frozenRead w c n) c n) c n st data poisoned

def execCompletionTimeout (c n : Nat) (s : State) : Res :=
  onCrag (.completionTimeout c n) c s fun w => hostReadError (invalDrop (frozenRead w c n) c n) c n

/-- Host reads that a lost link leaves without a completion end as errors (Table 17.3). -/
def failHostReads (w : Work) : Work :=
  (w.crags.flatMap fun e => e.2.ops.map fun o => (e.1, o.n)).foldl (fun w e => hostReadError (frozenRead w e.1 e.2) e.1 e.2) w

/-- Queues that an op uses. -/
def usesQueue (o : Op) (q : Nat) : Bool :=
  o.packets.any fun p => [srcA p, srcB p, srcC p, dstOf p].any fun f => qOf f = some q

/-- QUEUE_WAIT_END (R78, R80): every op that waits on the queue goes on, the earliest first. -/
def queueEnd (w : Work) (c q : Nat) : Work :=
  (((getCrag w c).ops.filter fun o => usesQueue o q).map (·.n)).foldl (fun w n => opGo w c n) w

def execQueueWaitEnd (c q : Nat) (s : State) : Res := onCrag (.queueWaitEnd c q) c s fun w => queueEnd w c q

/-- Updates of an op that this device's Update Units still hold. -/
def localUpds (w : Work) (c n : Nat) : Nat :=
  (w.upds.map fun e =>
    (e.2.queue.filter fun x => x.crag = c && x.op = n).length +
      (e.2.migs.map fun g => b2n (g.crag = c && g.op = n) + (g.held.filter fun x => x.crag = c && x.op = n).length).sum).sum

/-- Another device's Update Unit has dealt with the first update it has not acknowledged (R248, R249): one whose slot is poisoned there is
not performed and counts in CRAG_EUPOIS; on a device whose FeaturePresent bit 5 is clear an optimiser op is not performed. This device
knows neither the other's memory nor its features: a free value (log entry 31). -/
def remoteAck (w : Work) (c : Nat) (o : Op) : Work :=
  let (v, w) := freeVal w
  let w := setCrag w c (setOp (getCrag w c) { o with remoteUps := o.remoteUps.drop 1 })
  if bit v 1 then eupdAck (eupdPoison w c o.n (tenOfCrag w c) (o.remoteUps.headD 0)) c o.n false
  else if 0x7A ≤ opcOf o.pkt && opcOf o.pkt ≤ 0x7C && !bit v 0 then
    eupdAck (embNote w c fun x => { x with euSkip := bump x.euSkip 1 }) c o.n false
  else eupdAck w c o.n true

/-- ACKNOWLEDGEMENT (R23): a write of an op, or all of its writes to the host (R447), of a Summit's window, or of the host's BAR2. An EUPD's acknowledgement is one of
another device's Update Units (log entry 31); writes to other devices are acknowledged by WRITE_ACK. -/
def ackOp (w : Work) (who : Agent) : Work :=
  match who with
  | .op c n =>
    match findOp (getCrag w c) n with
    | none => w
    | some o =>
      if isEupd (opcOf o.pkt) then (if localUpds w c n < o.acks then remoteAck w c o else w)
      else if !isStream (opcOf o.pkt) then w
      else match dAsp (getChan (getCrag w c) (strmCh o.pkt)).desc with
        | 0 => opAck w c n
        | 1 => invalDone (hostAcked w c n)
        | _ => w
  | .summit s => if (getSummit w s).wacks = 0 then w else windowAck w s
  | .host => hostAck w
  | .basecamp => w

def execAcknowledgement (who : Agent) (s : State) : Res :=
  match who with
  | .op c _ => onCrag (.acknowledgement who) c s fun w => ackOp w who
  | .summit n => onSummit (.acknowledgement who) n s fun w => ackOp w who
  | .host => onMem (.acknowledgement who) s fun w => (ackOp w who)
  | .basecamp => onWork s fun w => ackOp w who

def execUpdateUnitApply (u : Nat) (s : State) : Res :=
  onUnit "Update Unit" 8 u s fun s => { s with work := settle (.updateUnitApply u) s.work (retryPuts (updateUnitApply s.work u)) }

def execMigrateClaimAck (u row : Nat) (s : State) : Res :=
  onUnit "Update Unit" 8 u s fun s => { s with work := settle (.migrateClaimAck u row) s.work (migClaimAck s.work u row) }

def execMigrateCopyAck (u row : Nat) (s : State) : Res :=
  onUnit "Update Unit" 8 u s fun s => { s with work := settle (.migrateCopyAck u row) s.work (retryPuts (migCopyAck s.work u row)) }

def execMigrateSwitchAck (u row : Nat) (s : State) : Res :=
  onUnit "Update Unit" 8 u s fun s => { s with work := settle (.migrateSwitchAck u row) s.work (migSwitchAck s.work u row) }

end Sys2Proof.Machine
end

