-- ==== Sys2Proof/Machine/It.lean ====
section
/-! DEFINITION. Installation Time (R371 to R380, R387, R564): offset measurements and their sources, lock, holdover, steps and
slews, PTP (Table 12.1, log entry 33), and the latched halves of the 64-bit registers. -/

namespace Sys2Proof.Machine

open Host

def itFault (s : State) (kind addr : Nat) : State := { s with work := raise s.work srcIt kind 0 addr }

def slewLimit (s : State) : Int := (od s.work 0x8006 : Nat)
def itSource (s : State) : Nat := od s.work 0x8001

/-- IT moved by a number of ticks. -/
def moveIt (s : State) (ticks : Int) : State :=
  { s with work := { s.work with now := BitVec.ofNat 64 (((s.work.now.toNat : Int) + ticks).toNat) } }

/-- What an offset does to IT (R378): a slew within the limit, a step when forward beyond it. -/
def correct (s : State) (off : Int) : State :=
  if off.natAbs ≤ (slewLimit s).natAbs then { s with it := { s.it with slew := off * 1000 } }
  else if 0 < off then
    let s := moveIt s (off / 100)
    { s with it := { s.it with slew := off % 100 * 1000 } }
  else s

/-- An offset backward beyond the limit (R378). -/
def diverge (s : State) : State :=
  let s := itFault s 0x72 (ofInt 32 s.it.offset)
  { s with it := { s.it with state := .diverged, good := 0 }, misc := { s.misc with diverged := BitVec.allOnes 16 } }

/-- An offset measurement, forward positive (R375, R378, Table 12.2). -/
def measure (s : State) (off : Int) : State :=
  let good := if off.natAbs ≤ 100 then s.it.good + 1 else 0
  let s := { s with it := { s.it with offset := off, good := good } }
  let back := decide (off < -(slewLimit s))
  match s.it.state with
  | .free => s
  | .diverged =>
    if off.natAbs ≤ (slewLimit s).natAbs then
      let s := correct s off
      { s with it := { s.it with state := .locked, lockedFor := 0 } }
    else correct s off
  | .locked => if back then diverge s else correct s off
  | _ =>
    if back then diverge s
    else
      let s := correct s off
      if 16 ≤ good then { s with it := { s.it with state := .locked, holdFor := 0, lockedFor := 0 } } else s

/-- The source is lost (R375): a lock is lost, and measurements start anew. -/
def sourceLost (s : State) : State :=
  if s.it.state = .locked then
    let s := itFault s 0x70 0
    { s with it := { s.it with state := .holdover, holdFor := 0, good := 0 }, misc := { s.misc with holdover := BitVec.allOnes 16 } }
  else { s with it := { s.it with good := 0 } }

/-- The port whose neighbour is followed, by ITSource 3 or 4. -/
def followPort (s : State) : Option Nat :=
  if itSource s = 3 then some (od s.work 0x8002) else if itSource s = 4 then some 8 else none

/-- Whether the source selected is lost (R375): no edge within 1.5 s of the expected one, or REF_10M absent for 10 µs; no Sync for 4 s;
the link down, or no exchange for 1 s. -/
def lossHolds (s : State) (ref10mAbsent : Bool) : Bool :=
  match itSource s with
  | 0 => false
  | 1 => ref10mAbsent || decide (25000000 ≤ s.it.edgeAge)
  | 2 => decide (40000000 ≤ s.it.syncAge)
  | _ => decide (10000000 ≤ s.it.exchAge) || (followPort s).any fun p => !portUp s.work p

/-- IT_SOURCE_LOST: the loss condition of the source. With REF_1PPS as the source it is the pins that report it, REF_10M having been
absent for 10 µs; the others are held to their times and their link (log entry 139). -/
def execItSourceLost (s : State) : Res := .next (if lossHolds s true then sourceLost s else s)

/-- ITHoldoverLimit elapses (R378). -/
def itExpiredOp (s : State) : State :=
  if s.it.state = .holdover && decide (od s.work 0x8005 ≤ s.it.holdFor) then
    let s := itFault s 0x71 0
    { s with it := { s.it with state := .expired }, misc := { s.misc with expired := BitVec.allOnes 16 } }
  else s

def execItExpired (s : State) : Res := .next (itExpiredOp s)

/-- Edges that were expected between the last one and the present one and did not come. -/
def missedEdges (i : ItUnit) : Nat := (i.edgeAge + 5000000) / 10000000 - 1

/-- A REF_1PPS edge (R374): offsetNs is how far, in ns, the edge lies ahead of the present tick. The first one begins the second that
ITRefSeconds named, and each later one the second that has come since. Its absence loses the source once R375 says so. -/
def ref1pps (s : State) (present : Bool) (offsetNs : Int) : State :=
  if itSource s ≠ 1 then s
  else if !present then (if lossHolds s false then sourceLost s else s)
  else
    let i := s.it
    let s := { s with it := { i with edgeAge := 0 } }
    match i.refSec with
    | none => s
    | some r =>
      let sec := if i.refNew then r else r + 1 + BitVec.ofNat 64 (missedEdges i)
      let off : Int := (sec.toNat : Int) * 1000000000 - (s.work.now.toNat : Int) * 100 + offsetNs
      measure { s with it := { s.it with refSec := some sec, refNew := false } } off

def execRef1ppsEdge (present : Bool) (offsetNs : Int) (s : State) : Res := .next (ref1pps s present offsetNs)

/-! ## PTP -/

/-- The best master clock algorithm's order of two Announce data sets. -/
def ptpKey (m : PtpMaster) : List Nat :=
  [m.priority1, m.clockClass, m.accuracy, m.variance, m.priority2, m.identity.toNat, m.steps]

def lexLess : List Nat → List Nat → Bool
  | a :: as, b :: bs => decide (a < b) || (a = b && lexLess as bs)
  | _, _ => false

/-- A message of the master that is followed, in the device's domain. -/
def fromMaster (s : State) (master : W64) : Bool := itSource s = 2 && s.it.ptpMaster.any fun m => m.identity = master

/-- A Sync and its precise time give an offset: the source's time at receipt less IT's. -/
def syncMeasure (s : State) (t1 t2 : Nat) : State :=
  let s := { s with it := { s.it with ptpLastT1 := t1, ptpLastT2 := t2, ptpT1 := none, syncAge := 0 } }
  measure s ((t1 : Int) + s.it.ptpDelay - (t2 : Int))

def ptpSync (s : State) (master : W64) (domain : Nat) (twoStep : Bool) (t1 t2 : Nat) : State :=
  if !fromMaster s master || domain ≠ od s.work 0x800B then s
  else if twoStep then { s with it := { s.it with ptpT1 := some t2 } }
  else syncMeasure s t1 t2

def execPtpSync (master : W64) (domain : Nat) (twoStep : Bool) (t1 t2 : Nat) (s : State) : Res :=
  .next (ptpSync s master domain twoStep t1 t2)

def ptpFollowUp (s : State) (master : W64) (t1 : Nat) : State :=
  match s.it.ptpT1 with
  | some t2 => if fromMaster s master then syncMeasure s t1 t2 else s
  | none => s

def execPtpFollowUp (master : W64) (t1 : Nat) (s : State) : Res := .next (ptpFollowUp s master t1)

/-- A Delay_Req sent at t3. -/
def delayReq (s : State) (t3 : Nat) : State :=
  if itSource s ≠ 2 || s.it.ptpMaster.isNone then s
  else { s with it := { s.it with ptpT3 := some t3 }, work := emit s.work .ptpDelayReq }

def execDelayReqSend (t3 : Nat) (s : State) : Res := .next (delayReq s t3)

/-- The mean path delay from a Sync and a delay exchange. -/
def delayResp (s : State) (master : W64) (t4 : Nat) : State :=
  match s.it.ptpT3 with
  | some t3 =>
    if !fromMaster s master then s
    else
      let d : Int := (((s.it.ptpLastT2 : Int) - s.it.ptpLastT1) + ((t4 : Int) - t3)) / 2
      { s with it := { s.it with ptpT3 := none, ptpDelay := d } }
  | none => s

def execPtpDelayResp (master : W64) (t4 : Nat) (s : State) : Res := .next (delayResp s master t4)

/-- The master followed: the best that has announced itself, until its Announces stay away (log entry 33). -/
def ptpAnnounce (s : State) (domain : Nat) (m : PtpMaster) : State :=
  let follow := { s with it := { s.it with ptpMaster := some m, announceAge := 0 } }
  if domain ≠ od s.work 0x800B then s
  else
    match s.it.ptpMaster with
    | none => follow
    | some b => if b.identity = m.identity || lexLess (ptpKey m) (ptpKey b) then follow else s

def execPtpAnnounce (domain : Nat) (m : PtpMaster) (s : State) : Res := .next (ptpAnnounce s domain m)

/-! ## Commands of software -/

/-- STEP (R378): the one backward step. -/
def itStep (s : State) : State :=
  let ok := s.work.dstate = .init || s.work.dstate = .preOp || s.work.dstate = .stopped
  if s.it.state = .diverged && ok then
    let back := min s.it.offset 0
    let s := moveIt s (back / 100)
    { s with it := { s.it with state := .locked, lockedFor := 0, slew := if back < 0 then back % 100 * 1000 else s.it.slew },
             misc := { s.misc with diverged := BitVec.allOnes 16 } }
  else s

def setRefSeconds (s : State) (v : W64) : State := { s with it := { s.it with refSec := some v, refNew := true } }

/-- ITSource is written (R378): ACQUIRING, from any state. -/
def acquire (s : State) : State := { s with it := { s.it with state := .acquiring, good := 0, upHold := false, hops := 0 } }

def setItSource (s : State) (v : Nat) : State := acquire { s with work := setOd s.work 0x8001 0 0 v }

/-- The same when the configuration set that is loaded names another source than before. -/
def followSource (old : Nat) (s : State) : State := if itSource s = old then s else acquire s

/-- A 32-bit read of the low half of IT_NOW or IT_SNAPTICK latches its high half (R387). -/
def lowRead (s : State) (off : Nat) : State :=
  let put := fun (v : Nat) =>
    { s with it := { s.it with lowLatch := Tab.set (bvD 32) s.it.lowLatch off (BitVec.ofNat 32 (v / 2 ^ 32)) } }
  if off = 0x40 then put s.work.now.toNat else if off = 0x58 then put s.ev.snapTick.toNat else s

def execItRegisterLowRead (off : Nat) (s : State) : Res := .next (lowRead s off)

/-- TIME_PPS_OUT (R564): high for the 100 ms that follow every whole second of IT. -/
def ppsOut (s : State) : State :=
  let high := decide (s.work.now.toNat % 10000000 < 1000000)
  if high = s.it.ppsHigh then s
  else { s with it := { s.it with ppsHigh := high }, work := emit s.work (.pin "TIME_PPS_OUT" high) }

def execTimePpsOut (s : State) : Res := .next (ppsOut s)

end Sys2Proof.Machine
end

