-- ==== Sys2Proof/Machine/SummitCtl.lean ====
section
/-! DEFINITION. The actions of the Summit window (R39, R70, R73, R430, R518, R520): run, halt, party reset, load, and the
forming of parties. -/

namespace Sys2Proof.Machine

/-- A refused write of the window (R39, R73). -/
def cfgRefuse (w : Work) (n : Nat) : Work := setSummit w n { getSummit w n with cfgRefused := true }

/-- A Spur that has been withdrawn (R520). -/
def isWithdrawn (w : Work) (s : Nat) : Bool := w.withdrawn.getLsbD s

/-- Whether Basecamp is bringing a spare in for a Crag of a party: it does so from the moment its leader is in RESET (R518). -/
def sparing (w : Work) (n : Nat) : Bool :=
  (getSummit w n).state = .reset && (partyCrags w n).any fun c => (getCrag w c).marked && cragPresent w c

/-- Starts or resumes a Summit (Table 2.11). -/
def runNow (w : Work) (n : Nat) : Work :=
  let m := getSummit w n
  match m.state with
  | .reset => setSummit w n { m with state := .running, pc := BitVec.ofNat 64 (m.pcStart.toNat / 2 * 2), runHeld := false }
  | .halted => setSummit w n { m with state := .running, runHeld := false }
  | _ => w

/-- RUN (R73, R430, R520). basecamp says whether Basecamp is at work: while it brings a spare in, RUN waits (R518). -/
def runOp (basecamp : Bool) (w : Work) (n : Nat) : Work :=
  let m := getSummit w n
  if w.dstate ≠ .run || (m.state ≠ .ganged && (partySpurs w n).any (isWithdrawn w)) then cfgRefuse w n
  else if basecamp && sparing w n then setSummit w n { m with runHeld := true }
  else runNow w n

/-- HALT (Table 2.11): a stalled instruction completes first. -/
def haltOp (w : Work) (n : Nat) : Work :=
  let m := getSummit w n
  if m.state = .running then
    setSummit w n (if m.stall.isSome then { m with haltReq := true } else { m with state := .halted })
  else w

/-- RESET (R70): ignored in the window of a ganged Summit. -/
def resetOp (w : Work) (n : Nat) : Work := if (getSummit w n).state = .ganged then w else partyReset w n

/-- LOAD (Table 2.11): from RESET only. -/
def loadOp (w : Work) (n : Nat) : Work :=
  let m := getSummit w n
  if m.state = .reset then setSummit w n { m with state := .loading } else w

/-- Copies an image block by block, at class 2 (R347), until a block has no translation or is poisoned: the bytes copied, and whether all
were. -/
def loadImage (w : Work) (n src len : Nat) : Work × List Byte × Bool :=
  let t := tenOfSpur w n
  (pieces src len).foldl (fun acc p =>
    match acc with
    | (w, bs, false) => (w, bs, false)
    | (w, bs, true) =>
      match vRead w (.summit n) (req 2 t) p.1 p.2 with
      | (w, _, _, some f) => (raise w (srcSummit n) 0x07 t f, bs, false)
      | (w, b, po, none) => if po then (w, bs, false) else (w, bs ++ b, true)) (w, [], true)

/-- The copy ends (Table 2.12): the IMEM image, then the DMEM image; LOAD_ERR keeps the memories as they are beyond the
failing block. -/
def loadDone (w : Work) (n : Nat) : Work :=
  let m := getSummit w n
  if m.state ≠ .loading then w
  else
    let (w, ib, iok) := loadImage w n m.imemSrc.toNat m.imemLen.toNat
    let (w, db, dok) := if iok then loadImage w n m.dmemSrc.toNat m.dmemLen.toNat else (w, [], false)
    let m := getSummit w n
    setSummit w n { m with state := .reset, imem := Mem.write m.imem 0 ib, dmem := Mem.write m.dmem 0 db,
                           loadErr := !(iok && dok) }

def execSummitLoadDone (n : Nat) (s : State) : Res := onSummit (.summitLoadDone n) n s fun w => loadDone w n

/-! ## Parties -/

def stillState (m : Summit) : Bool := m.state = .reset || m.state = .halted

/-- A Spur that the leader may take or drop (R39). -/
def spurFree (w : Work) (n s : Nat) : Bool :=
  let m := getSummit w s
  s = n || (m.lead = n && m.state = .ganged) || (m.lead = s && m.spurs = BitVec.ofNat 16 (2 ^ s) && stillState m)

/-- The conditions of R39 on a SUMMIT_PARTY write. -/
def partyOk (w : Work) (n mask lead : Nat) : Bool :=
  let named := maskList 16 mask
  let old := partySpurs w n
  decide (mask / 2 ^ n % 2 = 1) && lead = n && stillState (getSummit w n) && named.all (spurFree w n) &&
    old.all (spurFree w n) && named.all (fun s => !isWithdrawn w s) && named.all fun s => tenOfSpur w s = tenOfSpur w n

/-- The leader's credit for a Crag that joins: its FIFO's free slots. -/
def joinCredit (w : Work) (n c : Nat) : Work :=
  let x := getCrag w c
  setCredit w n c (64 - x.fe.flight.length - x.fe.fifo.length - x.credits)

/-- SUMMIT_PARTY (R39). A Spur that joins, or is dropped, brings its Crags' free slots as credits to its leader. -/
def partyWrite (w : Work) (n : Nat) (v : W32) : Work :=
  let mask := fld v 0 16
  if !partyOk w n mask (fld v 16 4) then cfgRefuse w n
  else
    let named := maskList 16 mask
    let dropped := (partySpurs w n).filter fun s => !decide (s ∈ named)
    let joined := named.filter fun s => !decide (s ∈ partySpurs w n)
    let w := dropped.foldl (fun w s =>
      setSummit w s { getSummit w s with state := .halted, lead := s, spurs := BitVec.ofNat 16 (2 ^ s) }) w
    let w := named.foldl (fun w s =>
      let m := getSummit w s
      setSummit w s { m with state := if s = n then m.state else .ganged, lead := n, spurs := BitVec.ofNat 16 mask }) w
    let w := (joined.flatMap (spurCrags w)).foldl (fun w c => joinCredit w n c) w
    dropped.foldl (fun w s => (spurCrags w s).foldl (fun w c => joinCredit w s c) w) w

/-! ## The window's other registers (R73) -/

/-- A write to a configuration register of the window: its offset and the merged value. Bits above a register's field are ignored, so a
length is compared with its bound after they are dropped (log entry 125). -/
def summitCfg (w : Work) (n off v : Nat) : Work :=
  let m := getSummit w n
  if !stillState m then cfgRefuse w n
  else
    match off with
    | 0x010 => if v % 8 ≠ 0 then cfgRefuse w n else setSummit w n { m with imemSrc := BitVec.ofNat 48 v }
    | 0x018 => if v % 8 ≠ 0 then cfgRefuse w n else setSummit w n { m with dmemSrc := BitVec.ofNat 48 v }
    | 0x020 => if v % 8 ≠ 0 || 65536 < v % 2 ^ 17 then cfgRefuse w n else setSummit w n { m with imemLen := BitVec.ofNat 17 v }
    | 0x024 => if v % 8 ≠ 0 || 262144 < v % 2 ^ 19 then cfgRefuse w n else setSummit w n { m with dmemLen := BitVec.ofNat 19 v }
    | 0x028 => setSummit w n { m with pcStart := BitVec.ofNat 16 (v % 65536 / 2 * 2) }
    | _ => w

/-- SUMMIT_CTRL (R73, Table 2.11): more than one action performs none. -/
def summitCtrl (basecamp : Bool) (w : Work) (n v : Nat) : Work :=
  match v % 16 with
  | 0 => w
  | 1 => runOp basecamp w n
  | 2 => haltOp w n
  | 4 => resetOp w n
  | 8 => loadOp w n
  | _ => cfgRefuse w n

/-- SUMMIT_STATUS: bits written as 1 are cleared. -/
def summitW1c (w : Work) (n v : Nat) : Work :=
  let m := getSummit w n
  setSummit w n { m with loadErr := m.loadErr && bitsN v 5 1 = 0, cfgRefused := m.cfgRefused && bitsN v 6 1 = 0,
                         brk := m.brk && bitsN v 7 1 = 0 }

end Sys2Proof.Machine
end

