-- ==== Sys2Proof/Machine/Sync.lean ====
section
/-! DEFINITION. Belay and task ops (R266 to R300), MARK (R483 to R486), Bivouac entry (R304), and the two faults that a Crag's
own counts raise: QDEADLOCK (R95, R96) and LATE (R101, R102). -/

namespace Sys2Proof.Machine

/-! ## BELAY.POST -/

/-- A local post, or BELAY_RANGE (R268). -/
def postLocal (w : Work) (c : Nat) (o : Op) : Work :=
  let b := fld o.pkt 128 16
  if mayBelay w (tenOfCrag w c) 33 b then
    let w := sendPost w b (fld o.pkt 192 32) (sigCrag w c o.unit) (some (c, o.n))
    setCrag w c (setOp (getCrag w c) { o with stage := .done, count := 1 })
  else belayRange w c b (devId w)

/-- A remote post (R276): one to this device or to the twin over the Rope takes no part in the digest. -/
def postRemote (w : Work) (c : Nat) (o : Op) : Work :=
  let b := fld o.pkt 128 16
  let dev := fld o.pkt 144 16
  let inc := fld o.pkt 192 32
  let f := { blankFrame w 3 dev with addr := BitVec.ofNat 48 b, inc := BitVec.ofNat 32 inc }
  let w := if dev = devId w ∨ twinId w = some dev then w
    else addDigest w c o.epoch (dev * 2 ^ 48 + inc * 2 ^ 16 + b) 3 0 []
  match sendRequest w c o.n (tenOfCrag w c) b f with
  | (w, none) => setCrag w c (setOp (getCrag w c) { o with stage := .waiting, count := 1 })
  | (w, some 0) => setCrag w c (setOp (getCrag w c) { o with stage := .done, count := 1 })
  | (w, some st) => cragFault w c 0x5E (remoteAddr (BitVec.ofNat 16 dev) st)

/-- BELAY.POST (R277, R278). -/
def belayPostStart (w : Work) (c n : Nat) : Work :=
  match findOp (getCrag w c) n with
  | none => w
  | some o =>
    if opcOf o.pkt ≠ 0x80 || !startable w c o || (bit o.pkt 161 && !ackedBefore w c n) then w
    else
      let x := startSeq (getCrag w c) o
      let o := { o with epoch := x.epoch }
      if bit o.pkt 160 then postRemote (setCrag w c x) c o else postLocal (setCrag w c x) c o

def execBelayPost (c n : Nat) (s : State) : Res := onCrag (.belayPost c n) c s fun w => belayPostStart w c n

/-! ## BELAY.WAIT -/

/-- The target of an LFMT 0 wait (R272). -/
def waitTarget (x : Crag) (p : Packet) : Int :=
  let i := if bit p 147 then (tallyIter x (fld p 144 3)).getD 0 else 0
  toSigned 64 (fld p 192 64) + ((fld p 176 16 * i : Nat) : Int)

/-- A list wait's entry: Belay and target (R273). An LFMT 2 target is an unsigned count, met exactly when the unsigned value
has reached it. -/
def waitEntry (lfmt : Nat) (bs : List Byte) : Nat × Int :=
  let v := leNat bs
  if lfmt = 1 then (bitsN v 0 16, toSigned 64 (bitsN v 64 64)) else (bitsN v 80 16, ((bitsN v 192 64 : Nat) : Int))

/-- The Belays and targets that a wait names, in order. -/
def waitTargets (x : Crag) (p : Packet) : Except OpErr (List (Nat × Int)) :=
  let l := fld p 149 2
  if l = 0 then .ok [(fld p 128 16, waitTarget x p)]
  else
    let e := if l = 1 then 16 else 32
    let n := fld p 160 16
    match opRead x p (opndLedge (srcA p)) (e * n) with
    | .error er => .error er
    | .ok (bs, _) => .ok ((chunks e bs).map (waitEntry l))

/-- BELAY.WAIT (R268, R272, R273): the head of a region starts after the STREAM.REGION that armed it (R98). -/
def belayWaitStart (w : Work) (c n : Nat) : Work :=
  let x := getCrag w c
  match findOp x n with
  | none => w
  | some o =>
    let early := o.head && (earlier x n).any fun e => opcOf e.pkt = 0x1C && !e.started
    if opcOf o.pkt ≠ 0x81 || !startable w c o || early then w
    else
      match waitTargets x o.pkt with
      | .error e => opFault w c e
      | .ok ts =>
        match ts.find? fun t => !mayBelay w (tenOfCrag w c) 34 t.1 with
        | some t => belayRange w c t.1 (devId w)
        | none => advanceWait (setCrag w c (startSeq x o)) c { o with targets := ts }

def execBelayWait (c n : Nat) (s : State) : Res := onCrag (.belayWait c n) c s fun w => belayWaitStart w c n

/-- The agent whose posts apply in the order they were made: another device, whose frames do not say which of its Crags posts (R276), or
the host (R452); none for a Crag of this device. -/
def postLane (p : Post) : Option Nat :=
  match p.reply, p.crag with
  | some (_, f), _ => some f.src.toNat
  | none, none => if fld p.sig 16 2 = 1 then some 65536 else none
  | none, some _ => none

/-- An earlier post of the same agent, among those on their way, has not been applied (R276, R452). -/
def postBehind (ps : List Post) (p : Post) : Bool :=
  (postLane p).isSome && (ps.takeWhile fun q => q ≠ p).any fun q => decide (postLane q = postLane p)

/-- BELAY_POST_APPLY (R267): the first post on its way to a Belay reaches its slice; a remote one is answered. -/
def postApply (w : Work) (b : Nat) : Work :=
  match w.posts.find? fun p => p.belay = b with
  | none => w
  | some p =>
    if postBehind w.posts p then w else
    let w := { w with posts := w.posts.eraseP fun q => q.belay = b }
    let w := applyPost w b p.inc.toNat p.sig
    match p.reply with
    | some (port, f) => respond w port f 0 [] 0
    | none => w

def execBelayPostApply (b : Nat) (s : State) : Res :=
  onUnit "Belay" 65536 b s fun s => { s with work := settle (.belayPostApply b) s.work (postApply s.work b) }

/-- The registered wait of an op. -/
def waiterOf (w : Work) (c : Nat) (o : Op) : Option (Nat × Waiter) :=
  match o.targets with
  | [] => none
  | t :: _ => ((getBelay w t.1).waiters.find? fun y => y.crag = c && y.op = o.n).map fun y => (t.1, y)

/-- BELAYTMO (R283): a registered wait whose elapsed count has reached WaitLimit ends unmet. -/
def belayTimeout (w : Work) (c n : Nat) : Work :=
  match findOp (getCrag w c) n with
  | none => w
  | some o =>
    match waiterOf w c o with
    | none => w
    | some (b, y) =>
      if y.elapsed < od w 0x4020 0 (tenOfCrag w c) || (getCrag w c).fe.frozen then w
      else
        let w := dropWaiter w b c n
        let x := leaveBivouac (getCrag w c)
        let x := { x with ops := x.ops.filter (fun p => p.n ≠ n), ac := { x.ac with bTimeout := true } }
        cragFault (setCrag w c x) c 0x20 (b + ofInt 32 y.target * 2 ^ 16)

def execBelaytmo (c n : Nat) (s : State) : Res := onCrag (.belaytmo c n) c s fun w => belayTimeout w c n

/-! ## Tasks -/

/-- The oldest eligible task of a tenancy in the lowest list of a mask that has one (R295). A task that a waiting TAKE is granted is not
taken from it (R294). -/
def takeScan (w : Work) (ten mask : Nat) : Option Task :=
  let gone := promised w w.sched.takers (eligTasks w)
  ((maskList 8 mask).map fun l => w.sched.ready.find? fun k =>
    decide (k.ten = ten) && decide (k.list = l) && eligible w k && !decide (k.seq ∈ gone)).findSome? id

/-- Takes the task that a scan finds; one that reads poisoned is discarded and the scan goes on (R366). The bound is the number of
queued tasks. -/
def takeFirst (c n slot ten mask : Nat) : Nat → Work → Work × Bool
  | 0, w => (w, false)
  | f + 1, w =>
    match takeScan w ten mask with
    | none => (w, false)
    | some k =>
      match deliverTask w k c n slot 5 with
      | (w, true) => (w, true)
      | (w, false) => takeFirst c n slot ten mask f w

/-- A TAKE whose slot already holds a task (R295). -/
def slotBusy (w : Work) (c : Nat) (o : Op) : Work :=
  let x := getCrag w c
  let x := setOp { x with ac := { x.ac with tSlotBusy := true } } { o with stage := .done, count := 0 }
  setCrag w c x

/-- TASK.TAKE (R295). -/
def takeStart (w : Work) (c n : Nat) : Work :=
  match findOp (getCrag w c) n with
  | none => w
  | some o =>
    if opcOf o.pkt ≠ 0x84 || !startable w c o then w
    else
      let w := setCrag w c (startSeq (getCrag w c) o)
      let slot := fld o.pkt 136 2
      let mask := fld o.pkt 128 8
      let t := tenOfCrag w c
      if (getSlot (getCrag w c) slot).isSome then slotBusy w c o
      else
        match takeFirst c n slot t mask (w.sched.ready.length + 1) w with
        | (w, true) => w
        | (w, false) =>
          if bit o.pkt 138 then setCrag w c (setOp (getCrag w c) { o with stage := .done, count := 0 })
          else
            let w := setCrag w c (setOp (getCrag w c) { o with stage := .waiting })
            let k := { crag := c, unit := o.unit, op := n, ten := t, mask := BitVec.ofNat 8 mask, slot := slot, since := w.now }
            { w with sched := { w.sched with takers := w.sched.takers ++ [k] } }

def execTaskTake (c n : Nat) (s : State) : Res := onCrag (.taskTake c n) c s fun w => takeStart w c n

/-- TASK.PUT (R292). -/
def putStart (w : Work) (c n : Nat) : Work :=
  match findOp (getCrag w c) n with
  | none => w
  | some o =>
    if opcOf o.pkt ≠ 0x85 || !startable w c o || !ackedBefore w c n then w
    else
      let w := setCrag w c (startSeq (getCrag w c) o)
      taskPutGo c (fld o.pkt 128 16) w o

def execTaskPut (c n : Nat) (s : State) : Res := onCrag (.taskPut c n) c s fun w => putStart w c n

/-- TASK.DONE (R296): the slot is freed and the task's service ends; puts that waited may now be accepted (R292). -/
def doneStart (w : Work) (c n : Nat) : Work :=
  match findOp (getCrag w c) n with
  | none => w
  | some o =>
    if opcOf o.pkt ≠ 0x86 || !startable w c o || !ackedBefore w c n then w
    else
      let x := startSeq (getCrag w c) o
      let slot := fld o.pkt 128 2
      match getSlot x slot with
      | none =>
        setCrag w c (setOp { x with ac := { x.ac with tDoneEmpty := true } } { o with stage := .done, count := 0 })
      | some k =>
        let w := setCrag w c (setOp (setSlot x slot none) { o with stage := .done, count := 1 })
        retryPuts (refreshElig (trace w k 7 c slot))

def execTaskDone (c n : Nat) (s : State) : Res := onCrag (.taskDone c n) c s fun w => doneStart w c n

/-- The task that is granted next: of those that a waiting TAKE fits, the one that became eligible first (R294). -/
def nextGrant (w : Work) : Option Task := (eligTasks w).find? fun k => (grantee w k).isSome

/-- TASK_GRANT (R294): the task goes to the TAKE that the rules name. One whose slot has been filled since it began to wait takes nothing
(R295). -/
def taskGrant (w : Work) (seq : Nat) : Work :=
  match nextGrant w with
  | none => w
  | some t =>
    if t.seq ≠ seq then w
    else
      match grantee w t with
      | none => w
      | some (k, reason) =>
        if (getSlot (getCrag w k.crag) k.slot).isNone then (deliverTask w t k.crag k.op k.slot reason).1
        else
          let w := setCrag w k.crag (leaveBivouac (getCrag w k.crag))
          let w := { w with sched := { w.sched with takers := w.sched.takers.filter fun y => !(y.crag = k.crag && y.op = k.op) } }
          match findOp (getCrag w k.crag) k.op with
          | none => w
          | some o => slotBusy w k.crag o

def execTaskGrant (seq : Nat) (s : State) : Res :=
  .next { s with work := settle (.taskGrant seq) s.work (taskGrant s.work seq) }

/-- DELAY_RELEASE (R302, R303): the first entry of the delay list, once it is due. -/
def delayRelease (w : Work) (seq : Nat) : Work :=
  match w.sched.delay with
  | [] => w
  | t :: rest =>
    if t.seq ≠ seq || w.now.toNat < t.release.toNat then w
    else
      let reason := if flowBusy w t then 6 else 2
      let w := { w with sched := { w.sched with delay := rest, ready := insReady t w.sched.ready } }
      retryPuts (refreshElig (trace w t reason 0xFF 0))

/-- Whether an Event Table entry of an earlier tick is due, which happens first (R380). -/
def eventBefore (s : State) (t : Task) : Bool := s.ev.table.any fun e => eventDue s e.2 && decide (e.2.tick.toNat < t.release.toNat)

def execDelayRelease (seq : Nat) (s : State) : Res :=
  onMem (.delayRelease seq) s fun w => if w.sched.delay.head?.any (eventBefore s) then w else delayRelease w seq

/-! ## Bivouac (R304) -/

/-- A started op that waits on a Belay or a task. -/
def Op.onBelayOrTask (o : Op) : Bool := o.stage = .waiting && (opcOf o.pkt = 0x81 || opcOf o.pkt = 0x84)

/-- Whether a unit waits on a Belay or task, itself or held by a wait with BOTH (R274). -/
def unitWaits (x : Crag) (u : Nat) : Bool :=
  x.ops.any fun o => o.onBelayOrTask && (decide (o.unit = u) || (opcOf o.pkt = 0x81 && bit o.pkt 148))

/-- A unit that waits so and does nothing else, or is idle with nothing dispatchable to it. -/
def unitQuiet (x : Crag) (u : Nat) : Bool :=
  if unitWaits x u then x.ops.all fun o => decide (o.unit ≠ u) || !o.started || o.onBelayOrTask
  else (x.ops.all fun o => decide (o.unit ≠ u)) &&
    match x.fe.fifo[x.fe.rp]? with
    | none => true
    | some f => decide (unitOf f.pkt ≠ u)

/-- The condition of a cycle that counts toward Bivouac. -/
def bivCond (x : Crag) : Bool := unitQuiet x 0 && unitQuiet x 1 && (unitWaits x 0 || unitWaits x 1)

def bivouacEnter (w : Work) (c : Nat) : Work :=
  let x := getCrag w c
  if x.bivouac || x.fe.frozen || x.idle < 4096 || !bivCond x then w else setCrag w c { x with bivouac := true }

def execBivouacEnter (c : Nat) (s : State) : Res := onCrag (.bivouacEnter c) c s fun w => bivouacEnter w c

/-! ## MARK -/

/-- The epoch of a party: the least epoch number among its Crags (R484). -/
def partyEpoch (w : Work) (lead : Nat) : Nat :=
  match (partyCrags w lead).map fun c => (getCrag w c).epoch.toNat with
  | [] => 0
  | e :: es => es.foldl min e

/-- Epochs that a party closes when its epoch rises from e0 to e1: each has a digest, at zero when nothing contributed to it. Of a rise by
more than 64, which the limit of R486 would hold for ever, e0 and those that something contributed to (log entry 157). -/
def closing (w : Work) (lead e0 e1 : Nat) : List Nat :=
  if e1 ≤ e0 then []
  else if e1 - e0 ≤ 64 then (List.range (e1 - e0)).map (e0 + ·)
  else e0 :: ((w.digests.filter fun d => d.1 = lead && decide (e0 < d.2.1.toNat) && decide (d.2.1.toNat < e1)).map
    fun d => d.2.1.toNat)

/-- MARK.EPOCH (R484, R486). -/
def markEpoch (s : State) (c n : Nat) : State :=
  let w := s.work
  match findOp (getCrag w c) n with
  | none => s
  | some o =>
    if opcOf o.pkt ≠ 0x88 || !startable w c o || !ackedBefore w c n then s
    else
      let lead := leaderOfCrag w c
      let x := getCrag w c
      let e := if bit o.pkt 128 then BitVec.ofNat 64 (fld o.pkt 192 64) else x.epoch + 1
      let x := startSeq { x with epoch := e } o
      let w' := setCrag w c (setOp x { o with stage := .done, count := 1, cycles := 1 })
      let es := if w.duplex then closing w lead (partyEpoch w lead) (partyEpoch w' lead) else []
      let held := (s.twin.closedAt.filter fun k => k.1 = lead).length
      if 64 < held + es.length then s
      else
        let missing := es.filter fun e => !w.digests.any fun d => d.1 = lead && d.2.1.toNat = e
        let w' := { w' with digests := w'.digests ++ missing.map fun e => (lead, BitVec.ofNat 64 e, 0) }
        { s with work := w', twin := { s.twin with
            closedAt := s.twin.closedAt ++ es.map fun e => (lead, BitVec.ofNat 64 e, w.now) } }

def execMarkEpoch (c n : Nat) (s : State) : Res :=
  if c < 256 then .next (markEpoch s c n) else .refused (.noSuchUnit "Crag" c)

/-- MARK.DIGEST (R485, R486). -/
def markDigest (w : Work) (c n : Nat) : Work :=
  match findOp (getCrag w c) n with
  | none => w
  | some o =>
    if opcOf o.pkt ≠ 0x89 || !startable w c o then w
    else
      let x := startSeq (getCrag w c) o
      let k := fld o.pkt 128 16
      let a := opndLedge (srcA o.pkt)
      match opRead x o.pkt a (128 * k) with
      | .error e => opFault w c e
      | .ok (bs, _) =>
        let w := setCrag w c (setOp x { o with stage := .done, count := k, cycles := k + 16 })
        ((chunks 128 bs).foldl (fun (acc : Work × Nat) b =>
          let blk := ledgeWrap (a + 128 * acc.2) / 128
          let po := b2n (Tab.get falseD x.lpois blk)
          (addDigest acc.1 c x.epoch (c * 2 ^ 16 + blk) 4 po b, acc.2 + 1)) (w, 0)).1

def execMarkDigest (c n : Nat) (s : State) : Res := onCrag (.markDigest c n) c s fun w => markDigest w c n

/-! ## Blocked units (R95) -/

/-- The queues that a started op waits to pop from: all that it needs, when every one of them is empty. -/
def popWaits (x : Crag) (o : Op) : List Nat :=
  let qs := if isStream (opcOf o.pkt) then
      if opcOf o.pkt = 0x11 && (getChan x (strmCh o.pkt)).state = 2 then (qOf (srcA o.pkt)).toList else []
    else if o.stage = .gathering then (needs o).map (·.q) else []
  if qs.all (qEmpty x) then qs else []

/-- The queues that a started op waits to push to: all that its results go to next, when every one of them is full. -/
def pushWaits (x : Crag) (o : Op) : List Nat :=
  let qs := if isStream (opcOf o.pkt) then
      if opcOf o.pkt = 0x10 && (getChan x (strmCh o.pkt)).state = 2 then (qOf (dstOf o.pkt)).toList else []
    else if o.stage = .draining then o.outQ.map (·.1) else []
  if qs.all (qFull x) then qs else []

/-- The queue that a stalled op waits on (R95). -/
def stallQueue (x : Crag) (o : Op) : Option Nat := (popWaits x o ++ pushWaits x o).head?

/-- Dispatch is stopped because the head of the FIFO is for a unit whose issue buffer is full (R36): that unit. -/
def dispatchStop (x : Crag) : Option Nat :=
  match x.fe.fifo[x.fe.rp]? with
  | none => none
  | some f => if !isFrontEnd (opcOf f.pkt) && bufferFull x f then some (unitOf f.pkt) else none

/-- The leader is stalled on a SUMn to which this Crag has dispatched the SUMMARY and not yet sent its contribution. -/
def owesSum (w : Work) (c : Nat) : Bool :=
  let x := getCrag w c
  match (getSummit w (leaderOfCrag w c)).stall with
  | some (.sum n _ _) => x.ops.any fun o => opcOf o.pkt = 8 && decide (fld o.pkt 132 4 = n) && o.stage ≠ .done
  | _ => false

/-- A MARK.EPOCH that nothing holds but the limit of closed digests (R486). -/
def markHeld (w : Work) (c : Nat) (o : Op) : Bool := opcOf o.pkt = 0x88 && !o.started && startable w c o && ackedBefore w c o.n

/-- A unit counts as blocked (R95): an op that computes, until it completes, is not stalled. -/
def unitBlocked (w : Work) (c u : Nat) : Bool :=
  let x := getCrag w c
  let mine := x.ops.filter fun o => o.unit = u
  let running := mine.filter fun o => o.started
  let stalled := running.filter fun o => o.stage ≠ .done && (stallQueue x o).isSome
  let idle := decide (mine.length = 0)
  decide (running.length = stalled.length) && !(mine.any (markHeld w c)) &&
    (decide (stalled.length ≠ 0) ||
      (mine.any fun o => !o.started && (sbHeld x o || queueHeld x o) && !waitHeld x o) ||
      (idle && dispatchStop x = some (1 - u)) ||
      (idle && (x.fe.fifo[x.fe.rp]?).isNone && owesSum w c))

/-- CRAG_QDL (Table 3.8). -/
def qdlValue (w : Work) (c : Nat) : Nat :=
  let x := getCrag w c
  let q := fun (u : Nat) => (x.ops.filter fun o => decide (o.unit = u) && o.started).findSome? (stallQueue x)
  let sb := fun (u : Nat) => x.ops.any fun o => decide (o.unit = u) && !o.started && sbHeld x o
  let part := fun (v : Option Nat) => match v with
    | some k => k + 16
    | none => 0
  1 + part (q 0) * 2 + part (q 1) * 64 + b2n (sb 0) * 2048 + b2n (sb 1) * 4096 + b2n (dispatchStop x).isSome * 8192

def writeQdl (w : Work) (c : Nat) : Work :=
  let x := getCrag w c
  setCrag w c { x with region := { x.region with qdl := BitVec.ofNat 32 (qdlValue w c) } }

/-- The deadlock count is full, on a Crag whose tenancy is not pre-empted (R96). -/
def qdlDue (w : Work) (c : Nat) : Bool :=
  let x := getCrag w c
  decide (65536 ≤ x.region.blocked) && !x.fe.frozen && canRun w (tenOfCrag w c)

/-! ## LATE -/

def tolPassed (x : Crag) : Bool :=
  decide (x.region.state = 2) && (decide (x.region.tol.toNat < x.region.waitAu) || decide (x.region.tol.toNat < x.region.waitEu))

def limitPassed (x : Crag) : Bool := decide (x.region.state = 2) && decide (x.region.limit.toNat < x.region.timer.toNat)

def lateDue (x : Crag) : Bool := (tolPassed x || limitPassed x) && !x.fe.frozen

/-- LATE (R102). When no scheduled op is incomplete, ADDR bits 8:0 name none: a free value (log entry 4). -/
def lateFault (w : Work) (c : Nat) : Work :=
  let x := getCrag w c
  let r := x.region
  let (low, w) := match x.ops.find? fun o => o.packets.any schedOf with
    | some o => (seqOf o.pkt + o.unit * 256, w)
    | none => let (v, w) := freeVal w; (fld v 0 9, w)
  let addr := low + b2n (tolPassed x) * 512 + b2n (limitPassed x) * 1024 + r.timer.toNat * 65536
  let y := { r with lateTol := r.lateTol || tolPassed x, lateLimit := r.lateLimit || limitPassed x }
  cragFault (setCrag w c { x with region := y }) c 0x01 addr

/-- LATE, and QDEADLOCK in the same cycle (R97). -/
def lateOp (w : Work) (c : Nat) : Work :=
  let x := getCrag w c
  if !lateDue x then w else lateFault (if qdlDue w c then writeQdl w c else w) c

def execLate (c : Nat) (s : State) : Res := onCrag (.late c) c s fun w => lateOp w c

/-- QDEADLOCK (R96); with LATE due as well only LATE is raised (R97). -/
def qdeadlockOp (w : Work) (c : Nat) : Work :=
  let x := getCrag w c
  if !qdlDue w c then w
  else if lateDue x then lateOp w c
  else cragFault (writeQdl w c) c 0x02 (qdlValue w c)

def execQdeadlock (c : Nat) (s : State) : Res := onCrag (.qdeadlock c) c s fun w => qdeadlockOp w c

end Sys2Proof.Machine
end

