-- ==== Sys2Proof/Machine/Ctrl.lean ====
section
/-! DEFINITION. Frames that only the Rope carries (R477, Tables 16.1 to 16.3), pins, the stop of every party (R429, R506) and the
work a device finishes before a commanded reset (R537). -/

namespace Sys2Proof.Machine

/-- A Rope frame of types 9 to 13 of this device (R477). -/
def ropeFrame (w : Work) (typ : Nat) : Frame :=
  { blankFrame w typ 0 with loc := true }

/-- Sends a frame to the twin unless the device has gone silent (R506). -/
def sendRope (w : Work) (f : Frame) : Work := if silenced w then w else (sendOn w 8 f).1

/-- A CTRL frame (Table 16.3). -/
def sendCtrl (w : Work) (kind ten addr : Nat) (payload : List Byte) : Work :=
  sendRope w { ropeFrame w 10 with
    inc := BitVec.ofNat 32 kind, srcTen := ten, addr := BitVec.ofNat 48 addr
    len := if payload = [] then 0 else 1, payload := if payload = [] then [] else padTo 128 0 payload }

/-- Discards a frame that the Rope does not carry in the present mode (R476, R477). -/
def dropRope (s : State) : State := { s with work := countDiscard s.work 8 }

/-- A Rope-only frame with the type, and for CTRL and FWD the kind, of its command (Tables 16.1, 16.3 and 16.4). -/
def ropeIn (typ kind : Nat) (f : Frame) : Frame :=
  { f with typ := typ, inc := if typ = 10 then setFld f.inc 0 8 kind else if typ = 12 then setFld f.inc 0 4 kind else f.inc }

/-- A frame of types 9 to 13 acts only in Duplex, over a link that is up; a Fenced device takes no part. -/
def onTwin (cmd : Instr) (typ kind : Nat) (f : Frame) (s : State) (act : Frame → State → State) : Res :=
  let g := if reservedFrame 8 typ f then f else ropeIn typ kind f
  .next (onLink cmd 8 g s fun s =>
    if reservedFrame 8 typ f then dropRope s else if s.work.dstate = .fenced then s else if s.work.duplex then act g s else dropRope s)

/-- Drives an output pin. -/
def pinOut (w : Work) (name : String) (level : Bool) : Work := emit w (.pin name level)

/-- Leading Summits of every party. -/
def leaders (w : Work) : List Nat := (List.range 16).filter fun s => leaderOf w s = s

/-- Every party stops under R68, without fault messages. -/
def stopAll (w : Work) : Work := (leaders w).foldl stopParty w

/-- One step of an Update Unit that finishes its work. -/
def finishUpd1 (w : Work) (u : Nat) : Work :=
  match (getUpd w u).migs with
  | g :: _ =>
    if g.phase = 0 then migClaimAck w u g.row
    else if g.phase = 1 then migCopyAck w u g.row
    else migSwitchAck w u g.row
  | [] => updateUnitApply w u

def finishUpd : Nat → Work → Nat → Work
  | 0, w, _ => w
  | k + 1, w, u => finishUpd k (finishUpd1 w u) u

/-- The Update Units finish their work (R261, R537): a migration takes four steps at most, an update one. -/
def finishUpds (w : Work) : Work :=
  (List.range 8).foldl (fun w u => finishUpd (4 * ((getUpd w u).queue.length + (getUpd w u).migs.length)) w u) w

/-- What precedes a commanded reset (R537): parties stop, Update Units finish, every slice is cleaned. It waits for every hold of
a channel to end, so nothing of it meets one. -/
def quiesce (w : Work) : Work :=
  let w := finishUpds (stopAll w)
  let w := (List.range 4).foldl (fun w d => sweepWays w d (BitVec.allOnes 16)) w
  { w with hold := none }

end Sys2Proof.Machine
end

