-- ==== Sys2Proof/Machine/Reset.lean ====
section
/-! DEFINITION. Device resets and POR (R536 to R539, Table 18.6): what each keeps. The part is then in Init until BRING_UP. -/

namespace Sys2Proof.Machine

/-- How a reset acts: POR, a reset at once (RST_N, PERST#, SYSCLK loss), or commanded. -/
inductive RKind where
  | por | hard | commanded
  deriving DecidableEq, Repr

/-- What a reset keeps of a Crag: Basecamp, which outlasts a device reset, holds the marks and the counts toward them (R517). -/
def keepCrag (k : RKind) (x : Crag) : Crag :=
  if k = .por then Crag.reset else offCrag x

/-- Persistent records of a tenancy (Tables 13.1 and 13.8). -/
def keepTen (t : Nat) (x : Ten) : Ten :=
  { Ten.reset t with resets := x.resets, resetsAtClose := x.resets, recSeq := x.recSeq, records := x.records }

/-- The cache sparing map and retired ways persist (R334). -/
def keepSlice (x : Slice) : Slice := { Slice.reset with grpMap := x.grpMap, wayRet := x.wayRet, wpmS := x.wpmS }

/-- Marks, remap entries, spare rows, hPPR records and error totals persist (R521, Table 11.14); Basecamp, which outlasts a device
reset, holds the corrected symbols of the pins (R353). -/
def keepCh (k : RKind) (x : MemCh) : MemCh :=
  let m := { MemCh.reset with mark := x.mark, remaps := x.remaps, spareUsed := x.spareUsed, chCe := x.chCe, chUe := x.chUe,
                              hpprUsed := x.hpprUsed }
  if k = .por then m else { m with resetN := x.resetN, lastTrain := x.lastTrain, trainTemp := x.trainTemp, temp := x.temp, pinTimes := x.pinTimes }

/-- The data plane after a reset. The working values are loaded from the active version (R433). -/
def keepWork (k : RKind) (w : Work) (actVals : Tab Nat) : Work :=
  { Work.reset with
    crags := Tab.mapV cragD (fun _ x => keepCrag k x) w.crags
    tens := Tab.mapV tenD keepTen w.tens
    slices := Tab.mapV sliceD (fun _ x => keepSlice x) w.slices
    chs := Tab.mapV chD (fun _ x => keepCh k x) w.chs
    dram := if k = .por then [] else w.dram
    errs := if k = .por then [] else w.errs
    lostRows := if k = .por then [] else w.lostRows
    lost := if k = .por then Work.reset.lost else w.lost
    spread := w.spread, retired := w.retired, od := actVals
    now := if k = .por then 0 else w.now
    hostGone := k ≠ .commanded || w.hostGone
    fuses := w.fuses, cragMap := w.cragMap, withdrawn := w.withdrawn, out := w.out, fresh := w.fresh }

/-- The collector: FC_FATAL outlasts every reset but POR (R509). -/
def keepFc (k : RKind) (c : Collector) : Collector :=
  if k = .por then Collector.reset else { Collector.reset with fatalValid := c.fatalValid, fatal := c.fatal }

def keepLog (k : RKind) (l : LogStore) : LogStore := if k = .por then { l with openRecs := [] } else l

/-- Configuration state: a commit under way is dropped (R434), and an activation that was left for the end of a message; one that a further
reset meets in Init has not reached Ready, and its version is on probation (R439). -/
def keepCfg (inInit : Bool) (c : CfgStore) : CfgStore :=
  { c with phase := if c.phase = 1 ∨ (c.phase = 2 ∧ inInit = false) then 0 else if c.phase = 2 then (if c.confirmedBefore then 0 else 3) else c.phase
           confirmedBefore := false, commitVals := [], confirmed := false,
           twinConfirmed := false, twinTriple := none, decision := none }

/-- Firmware state: POR runs the boot ROM again; a device reset ends the hold of a failed Basecamp (R522). -/
def keepFw (k : RKind) (f : Firmware) : Firmware :=
  if k = .por then { f with busy := false, dead := false, restarts := [], booted := false, recovery := false }
  else { f with dead := false }

/-- Power state: rails that are up stay up in a device reset (R537); what is left of a trip's hold-off is waited out after any reset
(R531). -/
def keepPwr (k : RKind) (cause : Nat) (p : Power) : Power :=
  let q := { Power.reset with dips := p.dips, dipLast := p.dipLast, resetCause := cause, perst := p.perst, tripLeft := p.tripLeft }
  if k = .por then q
  else { q with kDip := p.kDip, kTherm := p.kTherm, kPower := p.kPower, temps := p.temps, hottest := p.hottest,
                warnArmed := p.warnArmed, thermMs := p.thermMs, throttled := p.throttled,
                railsUp := p.railsUp, offDue := p.offDue, railMv := p.railMv, dipAt := p.dipAt, dipLow := p.dipLow,
                limitAt := p.limitAt, limitCyc := p.limitCyc, bootDue := p.bootDue }

/-- The host port: a commanded reset keeps link, configuration space, MSI-X table and pending bits (R537). -/
def keepHost (k : RKind) (h : HostPort) : HostPort :=
  if k = .commanded then
    { HostPort.reset with msixTab := h.msixTab, pba := h.pba, cfgSpace := h.cfgSpace, pcieUp := h.pcieUp, pcieSt := h.pcieSt,
                          width := h.width, speed := h.speed, bar2Log := h.bar2Log, d3hot := h.d3hot, perstAt := h.perstAt }
  else { HostPort.reset with perstAt := if k = .por then 0 else h.perstAt }

/-- Device records that persist, and what Basecamp's SRAM holds. -/
def keepMisc (k : RKind) (m : Misc) : Misc :=
  let r := { m with meterIv := 600000000, holdover := 0, expired := 0, diverged := 0 }
  if k = .por then { r with mgmtAuthFail := 0, mgmtResp := [], macTable := [], slaac := [], jtagIr := .idcode, jtagDr := [],
                            smbus := [], pmbAlert := false, bankTimes := [], bankUe := [] }
  else r

/-- A reset of the device, with its cause (Table 18.9). -/
def resetWith (k : RKind) (cause : Nat) (s : State) : State :=
  let w := keepWork k s.work s.cfg.actVals
  let w := if s.fc.fatalN then pinOut w "FATAL_N" true else w
  let w := if s.pwr.tripN then pinOut w "THERMTRIP_N" true else w
  let t := { State.reset with
    pending := s.pending, work := w, fc := keepFc k s.fc, log := keepLog k s.log
    it := if k = .por then ItUnit.reset else { s.it with lowLatch := [] }
    cfg := keepCfg (s.work.dstate = .init) s.cfg, fw := keepFw k s.fw, pwr := keepPwr k cause s.pwr, host := keepHost k s.host
    twin := { Twin.reset with term := s.twin.term }
    misc := keepMisc k s.misc }
  if k = .por then t else followSource (itSource s) t

/-- A commanded reset: what precedes it, then the reset (R537). -/
def commandedReset (s : State) : State := resetWith .commanded 3 { s with work := quiesce s.work }

/-- A reset that acts at once: PCIe goes down with it. -/
def hardReset (cause : Nat) (s : State) : State := resetWith .hard cause s

/-- RST_N (Table 18.5). -/
def execRstN (s : State) : Res := .next (hardReset 1 s)

/-- POR (Table 18.5): DRAM contents become undefined. -/
def execPor (s : State) : Res := .next (resetWith .por 0 s)

/-- SYSCLK has been absent for 1 µs (R535): device reset, and IT gains no ticks until SYSCLK returns. -/
def execSysclkLoss (s : State) : Res :=
  let s := hardReset 4 s
  .next { s with it := { s.it with sysclk := false } }

/-- SYSCLK has been present for 1 ms (R535): IT acquires its source again unless it is free-running. -/
def execSysclkReturn (s : State) : Res :=
  if s.it.sysclk then .next s
  else
    let st := if od s.work 0x8001 = 0 then s.it.state else ItSt.acquiring
    .next { s with it := { s.it with sysclk := true, state := st, good := 0 } }

end Sys2Proof.Machine
end

