-- ==== Sys2Proof/Machine/Version.lean ====
section
/-! DEFINITION. Configuration versions (R432 to R441, Table 14.11) and Basecamp firmware (R540 to R543). -/

namespace Sys2Proof.Machine

open Host

/-! ## Status codes (Table 14.4) -/

def stOk : Nat := 0
def stNoObject : Nat := 1
def stNotPresent : Nat := 2
def stReadOnly : Nat := 3
def stWriteOnly : Nat := 4
def stWrongState : Nat := 5
def stOutOfRange : Nat := 6
def stLength : Nat := 7
def stTooLate : Nat := 8
def stConflict : Nat := 9
def stDenied : Nat := 10
def stBusy : Nat := 11
def stSkipped : Nat := 12
def stFlashFail : Nat := 13

/-! ## The configuration set -/

/-- Whether the value under a key belongs to the configuration set (R432). -/
def cfgKey (k : Nat) : Bool :=
  match findObj (k / 16777216) (k / 65536 % 256) with
  | some o => inConfig o
  | none => false

/-- The configuration set of the working values. -/
def cfgVals (w : Work) : Tab Nat := Tab.drop (fun k => !cfgKey k) w.od

/-- Working values with the configuration set of a version. -/
def loadVals (w : Work) (vals : Tab Nat) : Work :=
  { w with od := vals.foldl (fun t e => Tab.set odDefault t e.1 e.2) (Tab.drop cfgKey w.od) }

/-- The configuration set of the active version is loaded; another ITSource is acquired (R378). -/
def loadActive (s : State) : State := followSource (itSource s) { s with work := loadVals s.work s.cfg.actVals }

/-- Selections that hold a value of an object. -/
def selCount : OSel → Nat
  | .ten => 16
  | .import => 256
  | _ => 1

/-- The set in ascending index and subindex: index, subindex, length and value (Table 14.11). -/
def cfgItems (vals : Tab Nat) : List (Nat × Nat × Nat × Nat) :=
  (objects.filter inConfig).flatMap fun o =>
    ((List.range (o.subHi + 1 - o.sub)).map (o.sub + ·)).flatMap fun sub =>
      (List.range (selCount o.sel)).map fun sel => (o.idx, sub, o.ty.size, Tab.get odDefault vals (okey o.idx sub sel))

/-- CfgDigest of a set of values (log entry 10). -/
def cfgDigest (vals : Tab Nat) : List Byte := sha256 (Config.cfgSerial (cfgItems vals))

/-- Whether a key's object makes a differing version one of kind 1 (R434). -/
def kind1Key (k : Nat) : Bool :=
  match findObj (k / 16777216) (k / 65536 % 256) with
  | some o => o.acc = .rws || o.cond ≠ .none
  | none => false

/-- The kind of activation that takes one set of values to another (R434). -/
def diffKind (a b : Tab Nat) : Nat :=
  b2n (((a ++ b).map (·.1)).any fun k => kind1Key k && Tab.get odDefault a k ≠ Tab.get odDefault b k)

/-- Whether the device is in a state that admits an activation of a kind (R435). -/
def kindAllowed (w : Work) (kind : Nat) : Bool :=
  if kind = 0 then w.dstate ≠ .init
  else w.dstate = .preOp || w.dstate = .ready || (w.dstate = .stopped && w.stopCause = 1)

/-! ## Activation and rollback -/

/-- Puts a version's values in force: at one moment, or through a commanded reset that ends in Ready (R435). probation opens a
window of CfgProbation ticks from now (R436). -/
def enforce (s : State) (kind : Nat) (probation : Bool) : State :=
  let now := s.work.now
  let s := if kind = 0 then loadActive s else commandedReset s
  let stop := BitVec.ofNat 64 (now.toNat + od s.work 0x1208)
  { s with cfg := { s.cfg with phase := if kind = 0 then (if probation then 3 else 0) else 2
                               confirmedBefore := kind ≠ 0 && !probation
                               probEnd := if probation then stop else s.cfg.probEnd
                               confirmed := false, twinConfirmed := false } }

/-- The pending version becomes active, the old active version previous (R435). -/
def activateNow (s : State) : State :=
  let c := s.cfg
  let kind := c.pendKind
  enforce { s with cfg := { c with previous := c.active, prevVals := c.actVals, active := c.pending, actVals := c.pendVals,
                                   pending := 0, pendVals := [], pendKind := 0, twinTriple := none, decision := none } } kind true

/-- The version records of a rollback (R438, R440): the failed version is gone. -/
def rollbackCfg (c : CfgStore) (cause : Nat) : CfgStore :=
  { c with active := c.previous, actVals := c.prevVals, previous := 0, prevVals := [], rbVersion := c.active, rbCause := cause,
           phase := 0, confirmed := false, twinConfirmed := false }

/-- CFG_ROLLBACK (Table 17.3). -/
def raiseRollback (s : State) : State :=
  { s with work := raise s.work srcConfig 0x74 0 (s.cfg.rbVersion + s.cfg.rbCause * 2 ^ 32) }

/-- The previous version becomes active again, without probation. -/
def rollback (s : State) (cause : Nat) : State :=
  let kind := diffKind s.cfg.actVals s.cfg.prevVals
  raiseRollback (enforce { s with cfg := rollbackCfg s.cfg cause } kind false)

/-- A rollback at the start of a bring-up (R439): the previous version is booted instead. -/
def rollbackBoot (s : State) (cause : Nat) : State :=
  let s := { s with cfg := rollbackCfg s.cfg cause }
  raiseRollback (loadActive s)

/-- Bring-up fails (Table 14.9, R439): a version on probation is rolled back and the device reset again; else Stopped with
StopCause 3. -/
def bringUpFail (s : State) : State :=
  if s.cfg.phase = 3 || (s.cfg.phase = 2 && !s.cfg.confirmedBefore) then
    let cause := if s.cfg.phase = 2 then 2 else 3
    raiseRollback (resetWith .commanded 3 { s with cfg := rollbackCfg s.cfg cause })
  else
    { s with work := { s.work with dstate := .stopped, stopCause := 3 }, cfg := { s.cfg with phase := 0, confirmedBefore := false } }

/-- Records the result of a configuration command (CfgLastResult). -/
def cfgResult (s : State) (st : Nat) : State × Nat := ({ s with cfg := { s.cfg with lastResult := st } }, st)

/-- Whether a write of flash fails for want of a block (R523): one that needs a new block when no spare is left. -/
def flashFull (s : State) : Bool := s.misc.flashWorn && Config.newBlock s.work.now

/-- COMMIT (R434). -/
def commitCmd (s : State) : State × Nat :=
  if s.cfg.phase = 3 then cfgResult s stWrongState
  else if s.cfg.phase ≠ 0 then cfgResult s stBusy
  else if flashFull s then cfgResult s stFlashFail
  else cfgResult { s with cfg := { s.cfg with phase := 1, commitVals := cfgVals s.work } } stOk

/-- Whether the pending version may be activated now (R435, R436): the status that says why not. -/
def activateStatus (s : State) : Nat :=
  if s.cfg.phase = 3 then stWrongState
  else if s.cfg.phase ≠ 0 then stBusy
  else if s.cfg.pending = 0 || !kindAllowed s.work s.cfg.pendKind then stWrongState
  else stOk

/-- A kind 0 activation or rollback takes effect between two messages (R435): it is left for the end of this one. -/
def deferAct (s : State) : State := { s with cfg := { s.cfg with phase := 2 } }

def activateCmd (s : State) : State × Nat :=
  let st := if s.work.duplex then stWrongState else activateStatus s
  let (s, st) := cfgResult s st
  (if st ≠ 0 then s else if s.cfg.pendKind = 0 then deferAct s else activateNow s, st)

/-- CONFIRM (R437, R441), until the tick at which the window ends. -/
def confirmCmd (s : State) : State × Nat :=
  if s.cfg.phase ≠ 3 || !(s.work.dstate = .ready || s.work.dstate = .run) || decide (s.cfg.probEnd.toNat ≤ s.work.now.toNat) then
    cfgResult s stWrongState
  else if s.work.duplex then
    cfgResult { s with cfg := { s.cfg with confirmed := true }, work := sendCtrl s.work 3 0 0 [] } stOk
  else cfgResult { s with cfg := { s.cfg with phase := 0 } } stOk

/-- ROLLBACK (R440). -/
def rollbackCmd (s : State) : State × Nat :=
  if s.cfg.phase = 1 || s.cfg.phase = 2 then cfgResult s stBusy
  else if s.cfg.previous = 0 then cfgResult s stOutOfRange
  else if !kindAllowed s.work (diffKind s.cfg.actVals s.cfg.prevVals) then cfgResult s stWrongState
  else
    let kind := diffKind s.cfg.actVals s.cfg.prevVals
    let (s, st) := cfgResult { s with cfg := { s.cfg with pending := 0, pendVals := [], pendKind := 0 } } stOk
    (if kind = 0 then deferAct s else rollback s 4, st)

/-- What a message that began in state s has left for its end takes effect (R435, R440): the activation of the pending version, or, where
none is pending, a rollback. Versions that changed already have taken effect with their reset. -/
def finishAct (s t : State) : State :=
  if s.cfg.phase ≠ 2 && t.cfg.phase = 2 && t.cfg.active = s.cfg.active then
    let u := { t with cfg := { t.cfg with phase := 0 } }
    if t.cfg.pending = 0 then rollback u 4 else activateNow u
  else t

/-- CfgCmd (Table 14.11). -/
def cfgCmd (s : State) (v : Nat) : State × Nat :=
  match v with
  | 1 => commitCmd s
  | 2 => activateCmd s
  | 3 => confirmCmd s
  | 4 => rollbackCmd s
  | 5 =>
    if s.cfg.phase = 1 || s.cfg.phase = 2 then cfgResult s stBusy
    else cfgResult { s with cfg := { s.cfg with pending := 0, pendVals := [], pendKind := 0 } } stOk
  | _ =>
    if s.cfg.phase = 1 || s.cfg.phase = 2 then cfgResult s stBusy
    else cfgResult (loadActive s) stOk

/-- COMMIT_DONE (R434). -/
def execCommitDone (ok : Bool) (s : State) : Res :=
  let c := s.cfg
  if c.phase ≠ 1 then .next s
  else if ok && !flashFull s then
    .next { s with cfg := { c with phase := 0, pending := c.highest + 1, highest := c.highest + 1, pendVals := c.commitVals,
                                   pendKind := diffKind c.actVals c.commitVals, commitVals := [] } }
  else .next { s with cfg := { c with phase := 0, lastResult := stFlashFail, commitVals := [] } }

/-- PROBATION_END (R438, R441): in Duplex the standby waits for its primary's decision. -/
def probationEnd (s : State) : State :=
  if s.cfg.phase ≠ 3 || decide (s.work.now.toNat < s.cfg.probEnd.toNat) then s
  else if s.work.duplex then
    if s.twin.role = 2 then s
    else if s.cfg.confirmed && s.cfg.twinConfirmed then
      { s with cfg := { s.cfg with phase := 0 }, work := sendCtrl s.work 2 0 2 [] }
    else rollback { s with work := sendCtrl s.work 2 0 3 [] } 1
  else rollback s 1

def execProbationEnd (s : State) : Res := .next (probationEnd s)

/-! ## The agreement of Duplex twins (R441) -/

/-- Ticks of Event Table entries that activate a version (ACTION 5 of Table 12.5). -/
def cfgActivateTicks (s : State) (within : Nat) : Option W64 :=
  ((s.ev.table.filter fun e => e.2.action = 5 && decide (s.work.now.toNat < e.2.tick.toNat) &&
      decide (e.2.tick.toNat ≤ s.work.now.toNat + within)).map fun e => e.2.tick).head?

/-- CFG_TRIPLE_DUE: version, CfgDigest.02 and T. -/
def execCfgTripleDue (s : State) : Res :=
  match cfgActivateTicks s 100000 with
  | none => .next s
  | some t =>
    if s.work.duplex then
      .next { s with work := sendCtrl s.work 1 0 0 (natLe 4 s.cfg.pending ++ cfgDigest s.cfg.pendVals ++ natLe 8 t.toNat) }
    else .next s

/-- The decision of the primary: ACTIVATE (0) when the twin's triple equals its own, else REFUSE (1). -/
def cfgDecide (s : State) (t : W64) : Nat :=
  if s.cfg.twinTriple = some (s.cfg.pending, BitVec.ofNat 256 (leNat (cfgDigest s.cfg.pendVals)), t) then 0 else 1

/-- CFG_DECISION_DUE: the primary decides once for a tick T. -/
def execCfgDecisionDue (s : State) : Res :=
  match cfgActivateTicks s 10000 with
  | none => .next s
  | some t =>
    if s.work.duplex && s.twin.role = 1 && s.cfg.decision.all (fun d => d.2 ≠ t) then
      let d := cfgDecide s t
      .next { s with cfg := { s.cfg with decision := some (d, t) }, work := sendCtrl s.work 2 0 d [] }
    else .next s

/-- A CFG_ACTIVATE action of tick T: the version it names must be the pending one; in Duplex the decision for T governs. True when
performed. -/
def cfgActivateAt (s : State) (n : Nat) (t : W64) : State × Bool :=
  if s.cfg.pending ≠ n || activateStatus s ≠ 0 || (s.work.duplex && s.cfg.decision ≠ some (0, t)) then
    ({ s with cfg := { s.cfg with twinTriple := none, decision := none } }, false)
  else (activateNow s, true)

/-- A CTRL CFG_TRIPLE frame. -/
def execCfgTriple (f : Frame) (s : State) : Res :=
  onTwin (.cfgTriple f) 10 1 f s fun f s =>
    let p := padTo 128 0 f.payload
    { s with cfg := { s.cfg with
        twinTriple := some (leNat (p.take 4), BitVec.ofNat 256 (leNat ((p.drop 4).take 32)), BitVec.ofNat 64 (leNat ((p.drop 36).take 8))) } }

/-- A CTRL CFG_DECISION frame. The decision before T is for the action that falls due next (log entry 153). -/
def execCfgDecision (f : Frame) (s : State) : Res :=
  onTwin (.cfgDecision f) 10 2 f s fun f s =>
    if s.twin.role ≠ 2 then s
    else
      match f.addr.toNat % 4 with
      | 2 => if s.cfg.phase = 3 then { s with cfg := { s.cfg with phase := 0 } } else s
      | 3 => if s.cfg.phase = 3 && s.cfg.previous ≠ 0 then rollback s 5 else s
      | d => { s with cfg := { s.cfg with decision := (cfgActivateTicks s 10000).map fun t => (d, t) } }

/-- A CTRL CFG_CONFIRMED frame. -/
def execCfgConfirmed (f : Frame) (s : State) : Res :=
  onTwin (.cfgConfirmed f) 10 3 f s fun _ s => { s with cfg := { s.cfg with twinConfirmed := true } }

/-! ## Firmware -/

/-- A region of the flash: address and size (Table 18.7). -/
structure FlashRegion where
  base : Nat
  size : Nat
  deriving DecidableEq, Repr

/-- The 64 MiB flash: both firmware slots, configuration versions, log, device records, reserved, spare blocks (R540, Table 18.7). -/
def flashLayout : List FlashRegion :=
  [⟨0x00000000, 0x1000000⟩, ⟨0x01000000, 0x1000000⟩, ⟨0x02000000, 0x400000⟩, ⟨0x02400000, 0x400000⟩, ⟨0x02800000, 0x800000⟩,
   ⟨0x03000000, 0xE00000⟩, ⟨0x03E00000, 0x200000⟩]

def u32D : Nat → W32 := fun _ => 0
def imageD : Nat → List Byte := fun _ => []

/-- The bytes written to a slot. -/
def slotImage (f : Firmware) (k : Nat) : List Byte := Tab.get imageD f.images k

/-- A 32-bit field of an image's header. -/
def headWord (im : List Byte) (k : Nat) : W32 := BitVec.ofNat 32 (leNat ((im.drop k).take 4))

/-- A valid image (R541): signature, hash, version and reserved fields. -/
def imageOk (least : W32) (im : List Byte) : Bool :=
  let word := fun k => leNat ((im.drop k).take 4)
  let zero := fun a b => ((im.drop a).take (b - a)).all (· = 0)
  let body := im.drop 256
  decide (256 ≤ im.length) && word 0 = 0x57464B44 && body.length = word 8 && decide (word 8 ≤ 458752) &&
    sha256 body = (im.drop 16).take 32 && Config.signatureOk (im.take 128) ((im.drop 128).take 64) &&
    decide (least.toNat ≤ word 4) && zero 48 128 && zero 192 256

/-- VERSION of the image that a slot holds, valid or not: an image from manufacture has the version that the boot ROM found. -/
def imageVer (f : Firmware) (k : Nat) : W32 := if slotImage f k = [] then Tab.get u32D f.ver k else headWord (slotImage f k) 4

/-- Whether a slot's image is valid now (R541): the boot ROM's finding stands for the bytes of an image from manufacture. -/
def slotValid (f : Firmware) (k : Nat) : Bool :=
  if slotImage f k = [] then imageVer f k ≠ 0 && decide (f.minVersion.toNat ≤ (imageVer f k).toNat)
  else imageOk f.minVersion (slotImage f k)

/-- FwSlotVersion: 0 when not valid. -/
def slotVer (f : Firmware) (k : Nat) : W32 := if slotValid f k then imageVer f k else 0

/-- A piece of FwImage, to the slot not running (R543). Offset 0 begins a new image. -/
def fwWrite (s : State) (off : Nat) (bs : List Byte) : State × Nat :=
  let f := s.fw
  let old := if off = 0 then [] else slotImage f (1 - f.slot)
  if (off ≠ 0 && off ≠ f.written) || decide (256 + 458752 < off + bs.length) then (s, stLength)
  else if flashFull s then (s, stFlashFail)
  else ({ s with fw := { f with images := Tab.set imageD f.images (1 - f.slot) (old ++ bs), written := off + bs.length, status := 1
                                ver := Tab.set u32D f.ver (1 - f.slot) 0 } }, stOk)

/-- The slot that the boot ROM boots (R542), with FwStatus and the trial. A write of FwImage under way is not gone on with. -/
def bootFw (f : Firmware) (now : W64) : Firmware :=
  let back := f.trial
  let want := if back then 1 - f.slot else f.nextSlot
  let ok := slotValid f
  let fresh := !back && want ≠ f.slot && ok want
  let f := { f with trial := false, status := if back then 5 else f.status, written := 0, recovery := !ok 0 && !ok 1 }
  if ok want then
    { f with slot := want, nextSlot := want, trial := fresh, trialStart := if fresh then now else f.trialStart,
             status := if fresh then 4 else f.status }
  else if ok (1 - want) then { f with slot := 1 - want, nextSlot := 1 - want }
  else f

/-- Basecamp restarts (R522): it is busy until BASECAMP_RETURN, and runs the slot the boot ROM chooses. -/
def restartBasecamp (s : State) : State := { s with fw := { bootFw s.fw s.work.now with busy := true } }

/-- MIN_VERSION of the image that a slot holds. -/
def imageMin (f : Firmware) (k : Nat) : W32 := if slotImage f k = [] then Config.bootMinVersion else headWord (slotImage f k) 12

/-- FwCmd (R543). VERIFY checks the slot not running. -/
def fwCmd (s : State) (v : Nat) : State × Nat :=
  let f := s.fw
  if s.cfg.phase = 1 || s.cfg.phase = 2 then (s, stBusy)
  else if f.trial && v ≠ 3 then (s, stWrongState)
  else
    match v with
    | 1 =>
      ({ s with fw := { f with status := if slotValid f (1 - f.slot) then 2 else 3 } }, stOk)
    | 2 => if f.status = 2 then ({ s with fw := { f with nextSlot := 1 - f.slot } }, stOk) else (s, stWrongState)
    | 3 =>
      if f.trial then
        ({ s with fw := { f with trial := false, status := 0, minVersion := imageMin f f.slot } }, stOk)
      else (s, stWrongState)
    | _ => (restartBasecamp s, stOk)

/-- FW_TRIAL_EXPIRY (R543). -/
def execFwTrialExpiry (s : State) : Res :=
  if s.fw.trial && decide (s.fw.trialStart.toNat + od s.work 0x1405 ≤ s.work.now.toNat) then .next (restartBasecamp s)
  else .next s

end Sys2Proof.Machine
end

