-- ==== Sys2Proof/WellFormed.lean ====
section
/-! DEFINITION. Which commands name units that the part can have: a logical Crag below 256, a Summit below 16 and so on. A
command that is not well formed is the command of no part, and its meaning refuses it by name. -/

namespace Sys2Proof

/-- Lane groups per direction of a Ridge link (Table 17.7). -/
def RidgeLane.groups (link : Nat) : Nat := if link = 0 then 70 else if link ≤ 4 then 36 else 56

/-- A lane group of a Ridge link that exists: CD1 has no link 0, which is CD0's (Table 17.2). -/
def RidgeLane.wf (l : RidgeLane) : Bool :=
  decide (l.die < 2) && decide (l.link < 7) && !(decide (l.die = 1) && decide (l.link = 0)) &&
    decide (l.group < RidgeLane.groups l.link) && decide (l.dir < 2)

/-- Select objects (R426): an index of the dictionary in place of a select register. -/
def selectObjects : List Nat :=
  [0x1305, 0x3000, 0x3100, 0x4000, 0x5010, 0x5011, 0x6020, 0x7010, 0x7020, 0x8010, 0x8022]

/-- The unit of an agent exists. -/
def Agent.wf : Agent → Bool
  | .op c _ => decide (c < 256)
  | .summit n => decide (n < 16)
  | .host => true
  | .basecamp => true

/-- Every unit that a command names by number exists. -/
def Instr.wf : Instr → Bool
  | .issueStore n _ _ _ | .tmaskStore n _ _ _ _ | .sumLoad n _ _ _ | .summitInstruction n | .windowLoadStore n _ _ _ |
    .summitFence n | .ebreak n _ | .summitLoadDone n => decide (n < 16)
  | .packetArrival c | .creditReturn c | .summaryContributionArrival c | .dispatch c | .summary c _ | .macroOpComplete c _ |
    .queueWaitEnd c _ | .streamRd c _ | .streamWr c _ | .streamReadReturn c _ | .pageRequestResponse c _ _ | .priTimeout c _ |
    .streamMcast c _ | .streamRegion c _ | .streamClose c _ | .qdeadlock c | .late c | .mma c _ | .sring c _ | .sringArg c _ |
    .gmergePack c _ | .gmergeUnpack c _ | .gmergePack24 c _ | .smmaA c _ | .smmaW c _ | .smmaAw c _ | .smmaPrune c _ |
    .vectorChainStart c _ | .vopFlags c _ | .gatherCsr c _ _ | .gatherCoo c _ _ | .gatherSeg c _ _ | .sampleU c _ _ |
    .sampleW c _ _ | .pool c _ _ | .poolPrefetch c _ | .eupdWrite c _ | .eupdAdd c _ | .eupdSgd c _ | .eupdAdagrad c _ |
    .eupdAdam c _ | .eupdMigrate c _ | .belayPost c _ | .belayWait c _ | .belaytmo c _ | .taskTake c _ | .taskPut c _ |
    .taskDone c _ | .bivouacEnter c | .markEpoch c _ | .markDigest c _ | .hostReadCompletion c _ _ _ _ |
    .completionTimeout c _ | .cragSpared c _ | .atsTranslationResponse c _ _ => decide (c < 256)
  | .acknowledgement a => a.wf
  | .mcastFetchStart g => decide (g < 64)
  | .updateUnitApply u | .migrateClaimAck u _ | .migrateCopyAck u _ | .migrateSwitchAck u _ => decide (u < 8)
  | .belayPostApply b => decide (b < 65536)
  | .selectWrite _ k _ => decide (k < 7) || decide (k ∈ selectObjects)
  | .cacheFillDone d _ _ | .cmoDone d | .sliceSweepDone d => decide (d < 4)
  | .waySweepDone d k => decide (d < 4) && decide (k < 16)
  | .bankSpare d g p => decide (d < 4) && decide (g < 32) && decide (p < 20)
  | .dramRead c _ _ | .rowRemapped c | .patrolScrub c _ _ | .emergencyRetrain c | .retrainDone c _ | .pprDone c _ _ | .tgDone c _ |
    .retrainDue c _ => decide (c < 24)
  | .ridgeLaneFail l => l.wf
  | .eventFire k => decide (k < 4096)
  | .dbRing t _ | .selftestResultTimeout t | .selfTestComplete t _ => decide (t < 16)
  | .write p _ | .read p _ | .post p _ | .readResp p _ | .writeAck p _ | .postAck p _ => decide (p < 10)
  | .time p _ | .link p _ => decide (p < 9)
  | .travLaneFail p l => decide (p < 8) && decide (l < 5)
  | .travLinkUp p => decide (p < 8)
  | .ropeLaneFail l => decide (l < 18)
  | .railWarnEnd m _ | .supplyFail m _ => decide (m < 24)
  | .taskGrant _ | .delayRelease _ | .cragReset _ | .summitRun _ | .summitHalt _ | .summitReset _ | .summitLoad _ |
    .summitPartyWrite _ _ | .bar0LowHalfWrite _ _ _ | .registerWrite _ _ _ _ | .belayPostRegister _ _ | .belaySet _ _ |
    .cacheRead _ _ _ _ | .cacheWrite _ _ _ _ _ _ | .clean _ _ _ | .invalidate _ _ _ | .cleanInvalidate _ _ _ | .zeroLine _ _ _ |
    .wayenWrite _ _ | .waypwrWrite _ _ | .sliceEnable _ | .sliceDisable _ _ | .retrain _ | .offline _ | .online _ | .ppr _ |
    .mark _ _ _ | .unmark _ _ | .tgGo _ _ | .ref1ppsEdge _ _ | .ptpSync _ _ _ _ _ | .ptpFollowUp _ _ | .ptpDelayResp _ _ |
    .ptpAnnounce _ _ | .itSourceLost | .itExpired | .timeExchangeTimer | .timePpsOut | .step _ | .itrefsecondsWrite _ _ |
    .itsourceWrite _ _ | .sysclkLoss | .sysclkReturn | .eventEntryWrite _ _ | .tenancyEnable _ | .tenancyDisable _ |
    .tenancyReset _ | .xlateInval _ | .energyMeasure _ _ | .powerLimitRequest _ _ | .mbGo _ | .mgmtDatagram _ | .commitDone _ |
    .probationEnd | .cfgTripleDue | .cfgDecisionDue | .faultClearValid _ | .faultClearFatal _ | .fwTrialExpiry | .bar2Read _ _ |
    .bar2Write _ _ _ | .atsInvalidation _ _ | .pcieLinkDown | .perstAssert | .perstDeassert | .rstN | .travTimeout _ |
    .ropeLinkUp _ _ _ | .lease _ | .leaseSend | .leaseTimeout | .witnessWaitExpiry | .cfgTriple _ | .cfgDecision _ |
    .cfgConfirmed _ | .agree _ | .stopTen _ | .selftest _ | .resetTen _ | .ctrlDetach _ | .digest _ | .fwdHostRegister _ |
    .fwdBar2 _ | .fwdStreamData _ | .fwdOdFragment _ | .fwdTraverseRequest _ | .copy _ | .copyDone | .faultMessage _ |
    .logRecordClose | .sentinelWatchdogMiss | .vddCoreDip | .dipRecovery _ | .por | .thermalRead _ | .tripHoldoffExpiry |
    .bringUp _ | .itRegisterLowRead _ | .delayReqSend _ | .icmpv6Message _ | .jtagTapOperation _ | .smbusTransaction _ _ |
    .pmbusAlert | .basecampReturn | .ropeRetrainDone | .pcieLinkUp _ _ | .configurationRequest _ _ _ _ => true

end Sys2Proof
end

