-- ==== Sys2Proof/Machine/Faults.lean ====
section
/-! DEFINITION. The fault collector, the reactions to faults, Basecamp's log and spare capacity (R500 to R523). -/

namespace Sys2Proof.Machine

open Host

/-! ## Interrupts -/

/-- A vector raised at most once in any 10 µs (R505). -/
def irq (s : State) (v : Nat) : State :=
  let last := (Tab.get (bvD 64) s.fc.lastIrq v).toNat
  let now := s.work.now.toNat
  if last ≠ 0 ∧ now + 1 < last + 100 then s
  else { s with work := msix s.work v, fc := { s.fc with lastIrq := Tab.set (bvD 64) s.fc.lastIrq v (BitVec.ofNat 64 (now + 1)) } }

/-- A vector raised at once, without regard to the 10 µs rule (R506). -/
def irqNow (s : State) (v : Nat) : State :=
  { s with work := msix s.work v
           fc := { s.fc with lastIrq := Tab.set (bvD 64) s.fc.lastIrq v (BitVec.ofNat 64 (s.work.now.toNat + 1)) } }

/-! ## Messages and the log -/

/-- The 128 bits of a message (Table 17.1). -/
def msgBits (m : FaultMsg) : Nat :=
  m.src.toNat + m.kind.toNat * 2 ^ 16 + m.cls.toNat * 2 ^ 24 + m.ten.toNat * 2 ^ 26 + m.addr.toNat * 2 ^ 32 + m.it.toNat * 2 ^ 80

def msgBytes (m : FaultMsg) : List Byte := natLe 16 (msgBits m)

def sameFault (a b : FaultMsg) : Bool := a.src = b.src && a.kind = b.kind && a.ten = b.ten

def logD : Nat → Option LogRec := fun _ => none

/-- Appends a record to the ring of 131,072 (R511). -/
def writeRec (l : LogStore) (r : LogRec) : LogStore :=
  let n := l.next.toNat
  let l := { l with recs := Tab.set logD l.recs n (some r), next := l.next + 1 }
  if l.oldest.toNat + 131072 < l.next.toNat then
    { l with recs := Tab.set logD l.recs l.oldest.toNat none, oldest := l.oldest + 1 }
  else l

/-- The full IT of a message, whose IT field holds the low 48 bits of the moment of detection (R372, R500). -/
def fullIt (now : W64) (m : FaultMsg) : W64 := now - ((now - m.it.setWidth 64).setWidth 48).setWidth 64

/-- Basecamp logs a message from the collector (R511): a fatal one at once (R506). -/
def logMsg (s : State) (m : FaultMsg) : State :=
  let l := s.log
  let drop := { s with log := { l with dropped := bump l.dropped 1 } }
  if s.fw.dead || s.fw.recovery then s
  else if s.fw.busy then drop
  else
    let r : LogRec := { msg := m, it := fullIt s.work.now m, rep := 0 }
    if m.cls = 2 then { s with log := writeRec l r }
    else if l.openRecs.any fun q => sameFault q.msg m then
      { s with log := { l with openRecs := l.openRecs.map fun q => if sameFault q.msg m then { q with rep := q.rep + 1 } else q } }
    else if 256 ≤ l.openRecs.length then drop
    else { s with log := { l with openRecs := l.openRecs ++ [r] } }

/-- LOG_RECORD_CLOSE: the oldest record has been open for 1 s of IT. -/
def execLogRecordClose (s : State) : Res :=
  match s.log.openRecs with
  | r :: rest =>
    if basecampUp s && decide (r.it.toNat + 10000000 ≤ s.work.now.toNat) then
      .next { s with log := writeRec { s.log with openRecs := rest } r }
    else .next s
  | [] => .next s

/-! ## The collector -/

/-- FC_FIRST, VALID, OVERFLOW and MERGED (R508). -/
def firstError (c : Collector) (m : FaultMsg) : Collector :=
  match c.first with
  | none => { c with first := some m, valid := true }
  | some f =>
    if sameFault f m then { c with merged := min 255 (c.merged + 1) }
    else { c with overflow := true }

/-- The count of a message's class; FC_FATAL (R508, R509). -/
def countMsg (c : Collector) (m : FaultMsg) : Collector :=
  if m.cls = 0 then { c with cntCe := bumpSat c.cntCe 1 }
  else if m.cls = 1 then { c with cntCt := bumpSat c.cntCt 1 }
  else
    let c := { c with cntFa := bumpSat c.cntFa 1 }
    if c.fatalValid then c else { c with fatalValid := true, fatal := some m }

def tenLastD : Nat → Option FaultMsg := fun _ => none

/-- FaultTenLast and FaultTenSeq (R505, R512). -/
def tenFault (c : Collector) (m : FaultMsg) : Collector :=
  let t := m.ten.toNat
  { c with tenLast := Tab.set tenLastD c.tenLast t (some m), tenSeq := Tab.set u32D c.tenSeq t (bump (Tab.get u32D c.tenSeq t) 1) }

/-- The reaction to a fatal fault (R506, R507). -/
def fatalReact (s : State) : State :=
  let s := { s with work := pinOut s.work "FATAL_N" false, fc := { s.fc with fatalN := true } }
  let s := irqNow s 0
  if s.work.dstate = .init then bringUpFail s
  else
    let w := if s.work.duplex then sendCtrl s.work 8 0 0 [] else s.work
    { s with work := { stopAll w with dstate := .stopped, stopCause := 2 } }

/-- The collector takes one message (R503 to R509). -/
def acceptMsg (s : State) (m : FaultMsg) : State :=
  let c := countMsg (firstError s.fc m) m
  let c := if m.cls = 0 then c else tenFault c m
  let s := logMsg { s with fc := c } m
  if m.cls = 0 then (if c.ceIrq then irq s 0 else s)
  else if m.cls = 1 then irq (if m.ten = 0 then s else irq s m.ten.toNat) 0
  else fatalReact s

/-- The message that the collector takes next: the oldest, or, among those of its tick, that of the lowest SRC (R508; log entry 158). -/
def nextMsg (q : List FaultMsg) : Option FaultMsg :=
  match q with
  | [] => none
  | m :: _ => (q.takeWhile fun x => x.it = m.it).foldl (fun b x => if b.all fun y => decide (x.src.toNat < y.src.toNat) then some x else b) none

/-- The collector accepts a message that a source holds. -/
def acceptNext (s : State) : State :=
  match nextMsg s.work.faultQ with
  | none => s
  | some m => acceptMsg { s with work := { s.work with faultQ := s.work.faultQ.erase m } } m

/-- FC_STATUS.VALID written as 1, or FaultCmd 1 (R508). -/
def clearValid (s : State) : State :=
  { s with fc := { s.fc with first := none, valid := false, overflow := false, merged := 0 } }

/-- FC_STATUS.FATAL_VALID written as 1, or FaultCmd 2 (R509). -/
def clearFatal (s : State) : State := { s with fc := { s.fc with fatal := none, fatalValid := false } }

/-! ## Spare Crags (R515 to R521) -/

/-- The logical Crag in service at a physical place. -/
def logicalOf (w : Work) (die idx : Nat) : Option Nat :=
  (List.range (cragCount w)).find? fun c => cragPhys w c = die * 256 + idx

def markCrag (w : Work) (c : Nat) : Work := setCrag w c { getCrag w c with marked := true }

/-- A corrected event of a Crag counts toward sparing (R517). -/
def countCragCe (w : Work) (c : Nat) : Work :=
  let x := getCrag w c
  let ts := (x.ceTimes.filter fun t => decide (w.now.toNat < t.toNat + 864000000000)) ++ [w.now]
  setCrag w c { x with ceTimes := ts, marked := x.marked || decide (od w 0x6026 ≤ ts.length) }

/-- A Spur is withdrawn (R520), and its Crags switched off, now or when its party is reset (R30, R533). -/
def withdrawSpur (w : Work) (n : Nat) : Work := powerOffSpur { w with withdrawn := setBit w.withdrawn n true } n

/-- What a failed self-test leads to (R517, R545): failing Crags in service are marked and report it, and a failing Summit's Spur is withdrawn.
Which test failed no command says: a free value (log entry 4). -/
def testFails (w : Work) (crags summits : List Nat) : Work :=
  let fails := fun (w : Work) (src : BitVec 16) (t : Nat) =>
    let (v, w) := freeVal w
    raise w src 0x0D t (fld v 0 8)
  let bad := crags.filterMap fun p => logicalOf w (p / 256) (p % 256)
  let w := bad.foldl (fun w c => fails (markCrag w c) (srcCrag w c) (tenOfCrag w c)) w
  (summits.filter (· < 16)).foldl (fun w n => withdrawSpur (fails w (srcSummit n) (tenOfSpur w n)) n) w

/-- SelfTestResult (R545, Table 18.9). -/
def selfTestBits (crags summits : List Nat) : BitVec 288 :=
  let crag := fun p => if p % 256 < 136 ∧ p < 512 then [p / 256 * 136 + p % 256] else []
  let bits := crags.flatMap crag ++ (summits.filter (· < 16)).map (272 + ·)
  BitVec.ofNat 288 ((bits.eraseDups.map fun i => 2 ^ i).sum)

/-- Spares of a die that have not been used, lowest first; as built they are the physical Crags 128 to 135 (log entry 17). -/
def sparesLeft (s : State) (die : Nat) : List Nat :=
  ((List.range 8).map (128 + ·)).filter fun i => !decide (die * 256 + i ∈ s.misc.spareDead)

/-- Counts spares of a die as used. -/
def useSpares (s : State) (die : Nat) (l : List Nat) : State :=
  { s with misc := { s.misc with
    cragUsed := Tab.set zeroD s.misc.cragUsed die (Tab.get zeroD s.misc.cragUsed die + l.length)
    spareDead := s.misc.spareDead ++ l.map fun i => die * 256 + i } }

/-- A fresh Crag in place of a logical Crag. -/
def replaceCrag (w : Work) (c : Nat) : Work := setCrag (unregister w c) c Crag.reset

/-- Basecamp brings a spare in for a marked Crag (R518), or takes the Crag out of service (R520). failed lists the spares, as
die * 256 + index, whose self-test fails. -/
def spareCrag (s : State) (c : Nat) (failed : List Nat) : State :=
  let w := s.work
  let old := cragPhys w c
  let die := old / 256 % 2
  let avail := sparesLeft s die
  let bad := avail.takeWhile fun i => decide (die * 256 + i ∈ failed)
  let s := { s with work := replaceCrag w c }
  match (avail.drop bad.length).head? with
  | some i =>
    let s := useSpares s die (bad ++ [i])
    let w := { s.work with cragMap := Tab.set (cragMapD w.fuses.gradeC) s.work.cragMap c (die * 256 + i) }
    { s with work := raise w srcBasecamp 0x0E (tenOfCrag w c) old }
  | none =>
    let s := useSpares s die bad
    let w := { s.work with cragMap := Tab.set (cragMapD w.fuses.gradeC) s.work.cragMap c 0xFFFF }
    { s with work := raise (withdrawSpur w (spurOf w c)) srcBasecamp 0x0F 0 old }

/-- A RUN held during the procedure takes effect when it ends (R518). -/
def endSparing (w : Work) (n : Nat) : Work :=
  let m := getSummit w n
  if m.runHeld && !sparing w n then runOp false (setSummit w n { m with runHeld := false }) n else w

/-- CRAG_SPARED: the Crag is marked and its party's leader is in RESET. -/
def execCragSpared (c : Nat) (failed : List Nat) (s : State) : Res :=
  onUnit "Crag" 256 c s fun s =>
    if (getCrag s.work c).marked && cragPresent s.work c && basecampUp s &&
        (getSummit s.work (leaderOfCrag s.work c)).state = .reset then
      let t := spareCrag s c failed
      settleS (.cragSpared c failed) s { t with work := endSparing t.work (leaderOfCrag t.work c) }
    else s

/-! ## Detection (Table 17.3) -/

/-- A memory of a Crag that an uncorrectable error hits (CRAG_UE): Ledge block, queue or register lane is poisoned; the FIFO,
scoreboard or Tally stops the party. -/
def cragUe (w : Work) (c : Nat) (m : FaultMsg) : Work :=
  let loc := fld m.addr 0 20
  let w := markCrag w c
  let x := getCrag w c
  let note := fun (w : Work) => cragNote w c 0x0C m.addr.toNat
  match fld m.addr 44 4 with
  | 0 => note (setCrag w c { x with lpois := Tab.set falseD x.lpois (loc / 128) true })
  | 1 =>
    let q := getQueue x (loc % 16)
    note (setCrag w c (setQueue x (loc % 16) { q with ents := q.ents.map fun e => { e with poison := true } }))
  | 2 => note (setCrag w c { x with vpois := Tab.set falseD x.vpois (loc % 2048) true })
  | 3 => cragFault w c 0x0C m.addr.toNat
  | 4 => cragFault w c 0x0C m.addr.toNat
  | _ => note w

/-- An uncorrectable error in a Summit's memory: its Spur is withdrawn and a running Summit takes an access-fault trap (R46, R517). -/
def summitUe (w : Work) (n : Nat) (m : FaultMsg) : Work :=
  let w := withdrawSpur (raise w (srcSummit n) 0x0C (tenOfSpur w n) m.addr.toNat) n
  if (getSummit w n).state = .running then sumTrap w n 5 (fld m.addr 0 20) else w

/-- Kinds whose reaction is a party stop, when a Crag is their source (Table 17.3). -/
def partyStopKinds : List Nat := [0x01, 0x02, 0x03, 0x04, 0x05, 0x07, 0x08, 0x09, 0x20, 0x21, 0x22, 0x23]

def knownKinds : List Nat :=
  correctedKinds ++ fatalKinds ++ partyStopKinds ++
  [0x06, 0x0A, 0x0C, 0x0D, 0x0E, 0x0F, 0x25, 0x31, 0x33, 0x41, 0x44, 0x45, 0x46, 0x47, 0x58, 0x59, 0x5B, 0x5D, 0x5E, 0x5F,
   0x61, 0x62, 0x63, 0x64, 0x65, 0x66, 0x67, 0x71, 0x72, 0x76, 0x78]

/-- A fault that a Crag detects. -/
def cragDetect (w : Work) (c : Nat) (m : FaultMsg) : Work :=
  let k := m.kind.toNat
  if k = 0x0B then countCragCe (cragNote w c k m.addr.toNat) c
  else if k = 0x0C then cragUe w c m
  else if k = 0x0D then markCrag (cragNote w c k m.addr.toNat) c
  else if k ∈ partyStopKinds then cragFault w c k m.addr.toNat
  else cragNote w c k m.addr.toNat

/-- What a CACHE_CE does to the line it is in (R333): nothing, the error being corrected in place; a clean sector whose data cannot be
corrected is fetched again from DRAM; a clean line whose tag cannot be corrected is dropped. The message does not tell which: a free value
(log entry 4). -/
def sliceCorrect (w : Work) (d way a : Nat) : Work :=
  let (v, w) := freeVal w
  let x := getSlice w d
  let l := getLine x (setOf a) way
  let q := getSec l (sectorOf a)
  if fld v 0 2 = 1 ∧ q.valid ∧ !q.dirty then
    let (w, bs, p) := devRead w (req 0 0) (a / 128 * 128)
    putSector w d (setOf a) way (sectorOf a) bs false p
  else if fld v 0 2 = 2 ∧ (List.range 4).all (fun i => !(getSec l i).dirty) then setSlice w d (setLine x (setOf a) way lineNone)
  else w

/-- A cache slice's corrected or uncorrectable error (R333): the bank of the sector counts it, or the dirty sector is poisoned. -/
def sliceDetect (s : State) (m : FaultMsg) : State :=
  let a := m.addr.toNat
  let d := sliceOf a
  let x := getSlice s.work d
  let hit := lookupWay x a
  if m.kind = 0x30 then
    let s := { s with work := setSlice s.work d { x with ce := bump x.ce 1 } }
    match hit with
    | none => s
    | some way =>
      let k := bankKey d (2 * way + setOf a / 20480) (setOf a % 20480 / 1024)
      { s with
        work := sliceCorrect s.work d way a
        misc := { s.misc with bankTimes :=
          (s.misc.bankTimes.filter fun e => decide (s.work.now.toNat < e.2.toNat + 864000000000)) ++ [(k, s.work.now)] } }
  else
    let x := { x with ue := bump x.ue 1 }
    match hit with
    | none => { s with work := setSlice s.work d x }
    | some way =>
      let l := getLine x (setOf a) way
      let q := getSec l (sectorOf a)
      let x := if q.valid && q.dirty then setLine x (setOf a) way (setSec l (sectorOf a) { q with poison := true }) else x
      let k := bankKey d (2 * way + setOf a / 20480) (setOf a % 20480 / 1024)
      { s with work := setSlice s.work d x, misc := { s.misc with bankUe := k :: s.misc.bankUe.filter (· ≠ k) } }

/-- A flash block fails (R523). -/
def flashFail (s : State) (m : FaultMsg) : State :=
  if s.misc.flashUsed < 32 then
    { s with misc := { s.misc with flashUsed := s.misc.flashUsed + 1 }, work := raise s.work srcFlash 0x77 0 m.addr.toNat }
  else { s with misc := { s.misc with flashWorn := true }, work := raise s.work srcFlash 0x78 0 0 }

/-! ## Ridge lanes (R22) -/

/-- Number of a lane group: die, link, group, direction. -/
def ridgeKey (l : RidgeLane) : Nat := ((l.die * 8 + l.link) * 128 + l.group) * 2 + l.dir

/-- RIDGE_LANE_FAIL: the group's first failure takes its spare, the second leaves it at half width, the third is fatal. -/
def ridgeLaneFail (s : State) (l : RidgeLane) : State :=
  let k := ridgeKey l
  let st := Tab.get zeroD s.misc.ridgeGrp k
  let src := srcCode l.die 4 l.link
  let addr := l.group + l.dir * 128
  let m := { s.misc with ridgeGrp := Tab.set zeroD s.misc.ridgeGrp k (min 2 (st + 1)) }
  if st = 0 then
    let sub := 8 * l.die + l.link + 1
    { s with misc := { m with ridgeUsed := Tab.set zeroD m.ridgeUsed sub (Tab.get zeroD m.ridgeUsed sub + 1) }
             work := raise s.work src 0x50 0 addr }
  else if st = 1 then { s with misc := m, work := raise s.work src 0x51 0 addr }
  else { s with work := raise s.work src 0x52 0 addr }

def execRidgeLaneFail (l : RidgeLane) (s : State) : Res :=
  if l.wf then .next (ridgeLaneFail s l) else .refused (.noSuchUnit "Ridge lane group" l.group)

/-! ## Basecamp's watchdog (R522) -/

/-- SENTINEL_WATCHDOG_MISS: the third restart within 600 s of IT leaves Basecamp held in reset. -/
def watchdogMiss (s : State) : State :=
  if s.fw.dead || s.fw.busy then s
  else
    let now := s.work.now
    let rs := (s.fw.restarts.filter fun t => decide (now.toNat < t.toNat + 6000000000)) ++ [now]
    let s := restartBasecamp { s with fw := { s.fw with restarts := rs } }
    let s := { s with work := raise s.work srcSentinel 0x75 0 rs.length }
    if rs.length < 3 then s
    else { s with fw := { s.fw with dead := true, busy := false }, work := raise s.work srcSentinel 0x76 0 0 }

def execSentinelWatchdogMiss (s : State) : Res := .next (watchdogMiss s)

end Sys2Proof.Machine
end

