-- ==== Sys2Proof/Machine/Tenancy.lean ====
section
/-! DEFINITION. Tenancies: enabling, disabling and resetting (R388 to R400), slices (R397, R398), meters, usage records and the
measurement of energy (R401 to R407, R532). -/

namespace Sys2Proof.Machine

open Host

/-! ## Checks of ENABLE (R391) -/

/-- Whether two ranges modulo m share a number. -/
def rangesMeet (m b1 c1 b2 c2 : Nat) : Bool :=
  decide (0 < c1) && decide (0 < c2) && (inRange m b1 c1 (b2 % m) || inRange m b2 c2 (b1 % m))

/-- Tenancies other than t that are not FREE. -/
def otherTens (w : Work) (t : Nat) : List Nat := (List.range 16).filter fun u => u ≠ t && (getTen w u).state ≠ 0

/-- A Spur that ENABLE may take: tenancy 0 has it, and its party lies within the mask and stands still. -/
def spurReady (w : Work) (mask s : Nat) : Bool :=
  let l := leaderOf w s
  tenOfSpur w s = 0 && !isWithdrawn w s && (partySpurs w l).all (fun q => mask / 2 ^ q % 2 = 1) && stillState (getSummit w l)

def enableOk (w : Work) (t : Nat) : Bool :=
  let mask := tenSpursObj w t
  let share := od w 0x400B 0 t + ((otherTens w t).map fun u => od w 0x400B 0 u).sum
  (maskList 16 mask).all (spurReady w mask) &&
    (otherTens w t).all (fun u =>
      !rangesMeet 65536 (od w 0x4006 0 t) (od w 0x4007 0 t) (od w 0x4006 0 u) (od w 0x4007 0 u) &&
      !rangesMeet 1048576 (od w 0x4009 0 t) (od w 0x400A 0 t) (od w 0x4009 0 u) (od w 0x400A 0 u) &&
      decide (od w 0x400C 0 t &&& od w 0x400C 0 u = 0)) &&
    decide (share ≤ 1048576)

/-- Meters cleared by ENABLE (R401): the misses counted for the tenancy too, since TEN_CMISS is their sum. -/
def clearMeters (w : Work) (t : Nat) : Work :=
  let x := getTen w t
  let w := setTen w t { x with activeCyc := 0, bivCyc := 0, energy := 0, energyFrac := 0, lent := 0, borrowed := 0, lentFrac := 0,
                               borrowedFrac := 0, dram := [],
                               dramMs := 0, ridge := 0, trav := 0, rope := 0, slice := 0, shadow := [], startIt := w.now,
                               partialIv := true, resetsAtClose := x.resets }
  { w with slices := Tab.mapV sliceD (fun _ s => { s with miss := Tab.set (bvD 64) s.miss t 0 }) w.slices }

/-- Spurs that change tenancy are party-reset and zeroed (R392). -/
def transferSpurs (w : Work) (spurs : List Nat) : Work :=
  let w := (spurs.filter fun s => leaderOf w s = s).foldl partyReset w
  spurs.foldl zeroSpur w

/-- The tenancy's bit of TwinPairedTen, set when both twins reset or enable it (R497). -/
def pairTen (s : State) (t : Nat) : State :=
  if s.work.duplex && (s.work.fwding || s.work.standby) then
    { s with twin := { s.twin with paired := setBit s.twin.paired t true }
             work := { s.work with mirror := setBit s.work.mirror t false } }
  else s

/-- Flags of the usage interval that a tenancy opens now: what IT's state shows already. -/
def openFlags (s : State) (t : Nat) : State :=
  { s with misc := { s.misc with holdover := setBit s.misc.holdover t (s.it.state = .holdover)
                                 expired := setBit s.misc.expired t (s.it.state = .expired)
                                 diverged := setBit s.misc.diverged t (s.it.state = .diverged) } }

/-- ENABLE (Table 13.3). -/
def tenEnable (s : State) (t : Nat) : State × Nat :=
  let w := s.work
  if (getTen w t).state ≠ 0 then (s, stWrongState)
  else if !enableOk w t then (s, stConflict)
  else
    let w := clearMeters (transferSpurs w (maskList 16 (tenSpursObj w t))) t
    let w := setTen w t { getTen w t with state := 1, holds := false, deferred := false, preempt := false }
    (openFlags (pairTen { s with work := w } t) t, stOk)

/-! ## Reset and disable (R399) -/

/-- Listed Belays that a tenancy owns; every other is as after reset. -/
def ownedBelays (w : Work) (t : Nat) : List Nat := (w.belays.map (·.1)).filter (ownsBelay w t)

/-- The steps of R399. -/
def tenResetCore (w : Work) (t : Nat) : Work :=
  let spurs := tenSpurs w t
  let w := (tenLeaders w t).foldl stopParty w
  let w := transferSpurs w spurs
  let w := discardTasks w t
  let w := finishUpds ((ownedBelays w t).foldl clearBelay w)
  let w := invalXlate w t
  setTen w t { getTen w t with resets := bump (getTen w t).resets 1, preempt := false }

/-- The digests of a party's epochs and what the twins hold of them, dropped (log entry 141). -/
def dropEpochs (s : State) (lead : Nat) : State :=
  { s with
    work := { s.work with digests := s.work.digests.filter fun d => d.1 ≠ lead }
    twin := { s.twin with closedAt := s.twin.closedAt.filter fun d => d.1 ≠ lead
                          rxDig := s.twin.rxDig.filter fun d => d.1 ≠ lead
                          sentDig := s.twin.sentDig.filter fun d => d.1 ≠ lead } }

/-- RESET (Table 13.3): RESETTING, then ACTIVE, both within this command. -/
def tenReset (s : State) (t : Nat) : State × Nat :=
  if (getTen s.work t).state ≠ 1 then (s, stWrongState)
  else
    let s := (tenLeaders s.work t).foldl dropEpochs s
    (pairTen { s with work := tenResetCore s.work t } t, stOk)

/-! ## Usage records (R403 to R407) -/

/-- TEN_CMISS (Table 13.6). -/
def tenCmiss (w : Work) (t : Nat) : W64 :=
  BitVec.ofNat 64 (((List.range 4).map fun d => (Tab.get (bvD 64) (getSlice w d).miss t).toNat).sum)

/-- The meters in window order, TEN_SLICE last. -/
def tenMeters (w : Work) (t : Nat) : List W64 :=
  let x := getTen w t
  [x.activeCyc, x.bivCyc, x.energy, x.lent, x.borrowed] ++ (List.range 4).map (Tab.get (bvD 64) x.dram) ++
    [tenCmiss w t, x.ridge, x.trav, x.rope, x.slice]

/-- Bytes 0 to 191 of a record (Table 13.7). -/
def recordBody (s : State) (t : Nat) (final : Bool) : List Byte :=
  let x := getTen s.work t
  let flags := b2n (bit s.misc.holdover t) + 2 * b2n (bit s.misc.expired t) + 4 * b2n (bit s.misc.diverged t) +
    8 * b2n x.partialIv + 16 * b2n (x.resets ≠ x.resetsAtClose) + 32 * b2n final
  let old := padTo 14 0 x.shadow
  let incr := ((tenMeters s.work t).zip old).flatMap fun p => natLe 8 (p.1 - p.2).toNat
  natLe 2 1 ++ natLe 1 t ++ natLe 1 flags ++ natLe 2 (devId s.work) ++ natLe 2 s.misc.usageKeyId.toNat ++
    natLe 8 s.work.fuses.serial.toNat ++ natLe 8 x.recSeq.toNat ++ natLe 8 x.startIt.toNat ++ natLe 8 s.work.now.toNat ++
    natLe 4 s.cfg.active ++ natLe 4 (x.resets - x.resetsAtClose).toNat ++ incr ++ zeros 32

/-- Basecamp closes a tenancy's interval: record, signature, and the newest 1,024 records kept (R403 to R407). -/
def closeRecord (s : State) (t : Nat) (final : Bool) : State :=
  let body := recordBody s t final
  let x := getTen s.work t
  let recs := x.records ++ [(x.recSeq, body ++ hmac256 s.misc.usageKey body)]
  let x := { x with records := recs.drop (recs.length - 1024), recSeq := x.recSeq + 1, shadow := tenMeters s.work t,
                    startIt := s.work.now, partialIv := false, resetsAtClose := x.resets }
  openFlags { s with work := setTen s.work t x } t

/-- METER_CLOSE (R403): a record for each ACTIVE tenancy; then a new MeterInterval takes effect. -/
def meterClose (s : State) : State :=
  let s := ((List.range 16).filter fun t => (getTen s.work t).state = 1).foldl (fun s t => closeRecord s t false) s
  { s with misc := { s.misc with meterIv := BitVec.ofNat 64 (od s.work 0x5000) } }

/-- DISABLE (Table 13.3, R404): reset, FINAL record, Spurs back to tenancy 0. -/
def tenDisable (s : State) (t : Nat) : State × Nat :=
  if t = 0 || (getTen s.work t).state ≠ 1 then (s, stWrongState)
  else
    let s := (tenLeaders s.work t).foldl dropEpochs s
    let s := closeRecord { s with work := tenResetCore s.work t } t true
    let x := getTen s.work t
    let w := setTen s.work t { x with state := 0, holds := false, deferred := false }
    ({ s with work := w, twin := { s.twin with paired := setBit s.twin.paired t false } }, stOk)

/-- TenCtrl (Table 13.3). -/
def tenCtrl (s : State) (t v : Nat) : State × Nat :=
  match v with
  | 1 => tenEnable s t
  | 2 => tenDisable s t
  | _ => tenReset s t

/-! ## Slices (R397, R398, R103) -/

/-- A SLICE action: one for a tenancy that is not sliced, or FREE, has no effect. -/
def sliceAction (w : Work) (t arg0 : Nat) : Work :=
  let x := getTen w t
  if od w 0x400F 0 t = 0 || x.state = 0 then w
  else if arg0 % 2 = 1 then setTen w t { x with holds := true, deferred := false }
  else if regionOpen w t then setTen w t { x with deferred := true }
  else setTen w t { x with holds := false, deferred := false }

/-! ## Energy and the power limit (R402, R306, R532) -/

/-- Adds microjoules to a tenancy's meter: whole millijoules, the rest carried. -/
def addEnergy (w : Work) (t uj : Nat) : Work :=
  let x := getTen w t
  let n := x.energyFrac + uj
  setTen w t { x with energy := bump x.energy (n / 1000), energyFrac := n % 1000 }

/-- The remainder in proportion to the DRAM bytes of the millisecond; what the divisions leave goes to the lowest of those
tenancies. -/
def shareRest (w : Work) (rest : Nat) : Work :=
  let ts := (List.range 16).filter fun t => decide (0 < (getTen w t).dramMs)
  let total := (ts.map fun t => (getTen w t).dramMs).sum
  match ts with
  | [] => addEnergy w 0 rest
  | t0 :: _ =>
    let part := fun t => rest * (getTen w t).dramMs / total
    let left := rest - (ts.map part).sum
    addEnergy (ts.foldl (fun w t => addEnergy w t (part t)) w) t0 left

/-- The tenancy that a unit served: Crags are 0 to 255, Update Units 256 to 263. -/
def servedBy (w : Work) (unit : Nat) : Nat := if unit < 256 then tenOfCrag w unit else (getUpd w (unit - 256)).served

/-- One unit's estimate goes to the tenancy it served, never more than the package's energy that is left (log entry 137). -/
def addEstimate (acc : Work × Nat) (e : Nat × Nat) : Work × Nat :=
  let n := min e.2 acc.2
  (addEnergy acc.1 (servedBy acc.1 e.1) n, acc.2 - n)

/-- ENERGY_MEASURE (R402): the package's energy of the millisecond in microjoules, and the units' estimates. -/
def energyMeasure (s : State) (uj : Nat) (estimates : List (Nat × Nat)) : State :=
  let (w, rest) := (estimates.filter fun e => decide (e.1 < 264)).foldl addEstimate (s.work, uj)
  let w := shareRest w rest
  let w := { w with tens := Tab.mapV tenD (fun _ x => { x with dramMs := 0 }) w.tens }
  let n := s.pwr.pkgFrac + uj
  { s with work := w, pwr := { s.pwr with powerNow := BitVec.ofNat 32 uj, pkgEnergy := bump s.pwr.pkgEnergy (n / 1000),
                                          pkgFrac := n % 1000 } }

def execEnergyMeasure (uj : Nat) (estimates : List (Nat × Nat)) (s : State) : Res := .next (energyMeasure s uj estimates)

/-- Crags of a tenancy whose domains are on, in Bivouac or running. -/
def poweredCrags (w : Work) (t : Nat) (biv : Bool) : Nat :=
  ((tenCrags w t).filter fun c => cragPresent w c && !w.withdrawn.getLsbD (spurOf w c) && (getCrag w c).bivouac == biv).length

/-- Whether a Crag in Bivouac can lend to a running one. -/
def loansMade (w : Work) : Bool :=
  (List.range 16).any (fun t => decide (0 < poweredCrags w t true)) && (List.range 16).any fun t => decide (0 < poweredCrags w t false)

/-- Microjoules lent and borrowed, added to a tenancy's meters: whole millijoules, the rest carried. -/
def addLoan (x : Ten) (lent taken : Nat) : Ten :=
  let l := x.lentFrac + lent
  let b := x.borrowedFrac + taken
  { x with lent := bump x.lent (l / 1000), lentFrac := l % 1000, borrowed := bump x.borrowed (b / 1000), borrowedFrac := b % 1000 }

/-- Loans of a millisecond in which the package limit would otherwise stretch CCLK (R306): each Crag in Bivouac lends its share of the
Crags' budget, and the running Crags borrow it in equal parts; what the division leaves goes to the lowest tenancy that borrows (log entry
136). -/
def meterLoans (w : Work) : Work :=
  let ts := List.range 16
  let lenders := fun t => poweredCrags w t true
  let takers := fun t => poweredCrags w t false
  let running := (ts.map takers).sum
  let lent := fun t => 1000 * Config.cragBudget * lenders t / ((ts.map lenders).sum + running)
  let sum := (ts.map lent).sum
  let part := fun t => sum * takers t / running
  let left := sum - (ts.map part).sum
  let first := (ts.find? fun t => decide (0 < takers t)).getD 0
  ts.foldl (fun w t => setTen w t (addLoan (getTen w t) (lent t) (part t + if t = first then left else 0))) w

/-- PkgPowerLimit in mW, which may lower the limit of 680 W (R28, R532). -/
def powerLimit (w : Work) : Nat := min 680 (od w 0x7002) * 1000

/-- The largest k from 2 to 8 whose package power is within a limit, given the powers at 2, 3 and so on; 2 when none is (R528, R532). -/
def largestK (limit : Nat) (powers : List Nat) : Nat :=
  ((powers.take 7).zipIdx).foldl (fun k e => if e.1 ≤ limit then max k (e.2 + 2) else k) 2

/-- The power limit's request is set once per millisecond (R532). -/
def limitDue (s : State) : Bool := s.pwr.limitAt.all fun t => decide (t.toNat + 10000 ≤ s.work.now.toNat)

/-- The loans of a millisecond, made when CCLK would be stretched without them, and the request (R306, R532). -/
def powerRequest (w : Work) (powers lent : List Nat) : Work × Nat :=
  let k := largestK (powerLimit w) powers
  if k < 8 && loansMade w then (meterLoans w, max k (largestK (powerLimit w) lent)) else (w, k)

/-- POWER_LIMIT_REQUEST (R532): PWR_LIMIT in each millisecond whose request is below 8. -/
def execPowerLimitRequest (powers lent : List Nat) (s : State) : Res :=
  if !limitDue s then .next s
  else
    let (w, k) := powerRequest s.work powers lent
    let w := if k < 8 then raise w srcPower 0x85 0 s.pwr.limitCyc else w
    .next { s with work := w, pwr := { s.pwr with kPower := k, limitAt := some s.work.now, limitCyc := 0 } }

end Sys2Proof.Machine
end

