-- ==== Sys2Proof/Machine/Twin.lean ====
section
/-! DEFINITION. Twin pairs over the Rope (R472 to R499): the link, modes, roles, leases, leadership, digests, detach and rejoin. -/

namespace Sys2Proof.Machine

open Host

/-! ## Roles -/

/-- What the role and pair state make of the data plane: suppression on a standby or orphan (R480), forwarding by a primary whose
twin follows (R479), and mirroring of its unpaired tenancies (R496, R497). -/
def applyRole (s : State) : State :=
  let w := s.work
  let follows := w.duplex && s.twin.role = 1 && portLive w 8 && (s.twin.pair = 1 || s.twin.pair = 3)
  { s with work := { w with standby := w.duplex && (s.twin.role = 2 || s.twin.role = 3), fwding := follows
                            mirror := if follows then ~~~s.twin.paired else 0 } }

/-- Fenced by the twin protocol (Table 14.9): from PreOp, Ready or Run. The device has no role any more. -/
def fence (s : State) : State :=
  let w := s.work
  let w := if w.dstate = .preOp || w.dstate = .ready || w.dstate = .run then { w with dstate := .fenced } else w
  applyRole { s with work := w, twin := { s.twin with role := 0, pair := 2, query := false } }

/-- A device becomes primary by promotion (R492): with a new term when newTerm. -/
def promote (s : State) (newTerm : Bool) : State :=
  let s := applyRole { s with twin := { s.twin with role := 1, pair := 2, query := false
                                                    term := if newTerm then s.twin.term + 1 else s.twin.term } }
  { s with work := resumeHost s.work }

/-- The pair becomes DEGRADED: the primary stops forwarding (R493). -/
def degrade (s : State) : State := applyRole { s with twin := { s.twin with pair := 2 } }

/-! ## Leases (R490, R494, R495) -/

/-- A LEASE frame of this device (Table 16.2). -/
def leaseFrame (s : State) : Frame :=
  let t := s.twin
  let p := natLe 8 t.term.toNat ++ natLe 1 t.role ++ natLe 1 (b2n s.work.fuses.seat) ++ natLe 1 (od s.work 0x8100) ++
    natLe 1 t.pair ++ natLe 4 s.cfg.active ++ cfgDigest s.cfg.actVals ++ natLe 8 s.work.now.toNat ++ natLe 2 t.paired.toNat
  { ropeFrame s.work 9 with len := 1, payload := padTo 128 0 p }

def sendLease (s : State) : State :=
  { s with work := sendRope s.work (leaseFrame s), twin := { s.twin with leaseSent := s.work.now } }

/-- LEASE_SEND (R490): 100,000 ticks after the last, on a primary and on a standby. -/
def execLeaseSend (s : State) : Res :=
  let due := decide (s.twin.leaseSent.toNat + 100000 ≤ s.work.now.toNat)
  .next (if s.work.duplex && (s.twin.role = 1 || s.twin.role = 2) && due then sendLease s else s)

/-- A received LEASE. -/
structure Lease where
  term   : W64
  role   : Nat
  seat   : Nat
  pair   : Nat
  cfg    : Nat
  digest : List Byte
  paired : BitVec 16
  deriving DecidableEq, Repr

def parseLease (f : Frame) : Lease :=
  let p := padTo 128 0 f.payload
  let at_ := fun a n => leNat ((p.drop a).take n)
  { term := BitVec.ofNat 64 (at_ 0 8), role := at_ 8 1, seat := at_ 9 1, pair := at_ 11 1, cfg := at_ 12 4,
    digest := (p.drop 16).take 32, paired := BitVec.ofNat 16 (at_ 56 2) }

def sameCfg (s : State) (l : Lease) : Bool := l.cfg = s.cfg.active && l.digest = cfgDigest s.cfg.actVals

/-- Two primaries meet (R494). -/
def contest (s : State) (l : Lease) : State :=
  let wins := decide (l.term.toNat < s.twin.term.toNat) || (l.term = s.twin.term && !s.work.fuses.seat)
  if wins then degrade s
  else fence { s with work := raise s.work srcRope 0x66 0 (fld l.term 0 48) }

/-- ACTIVE tenancies. -/
def activeMask (w : Work) : BitVec 16 :=
  BitVec.ofNat 16 (((List.range 16).map fun t => b2n ((getTen w t).state = 1) * 2 ^ t).sum)

/-- A LEASE reaches a device that is not primary from one that is (R478, R490, R495, R496): it refreshes the lease timer; a device
without a role becomes standby, and resilvers when the primary ran alone. -/
def fromPrimary (s : State) (l : Lease) : State :=
  if !sameCfg s l then fence { s with work := raise s.work srcRope 0x67 0 l.cfg }
  else
    let t := s.twin
    let pair := if t.role = 0 then (if l.pair = 1 then 1 else 3) else if t.role = 3 then 2 else t.pair
    applyRole { s with twin := { t with role := 2, pair := pair, term := if t.term.toNat < l.term.toNat then l.term else t.term
                                        lastLease := s.work.now, paired := l.paired, query := false }
                       work := if t.role = 0 then { s.work with fwdData := [] } else s.work }

/-- A LEASE reaches a primary from a device that is not one: differing configurations leave it DEGRADED (R495); a twin without a
role that meets a primary in DEGRADED is resilvered (R496). -/
def toPrimary (s : State) (l : Lease) : State :=
  if !sameCfg s l then degrade s
  else if s.twin.pair = 2 && l.role = 0 then
    applyRole { s with twin := { s.twin with pair := 3, copyAt := 0, paired := 0 } }
  else s

/-- Neither device is primary (R478): SEAT 0 becomes primary with a new term, unless it is orphaned (R491). It runs alone when the
configurations differ (R495). -/
def electPrimary (s : State) (l : Lease) : State :=
  if s.work.fuses.seat || s.twin.role = 3 then s
  else
    let term := if s.twin.term.toNat < l.term.toNat then l.term else s.twin.term
    let s := applyRole { s with twin := { s.twin with role := 1, pair := if sameCfg s l then 1 else 2, term := term + 1, paired := activeMask s.work } }
    sendLease s

/-- LEASE. -/
def takeLease (s : State) (l : Lease) : State :=
  if s.twin.role = 1 then (if l.role = 1 then contest s l else toPrimary s l)
  else if l.role = 1 then fromPrimary s l
  else electPrimary s l

def execLease (f : Frame) (s : State) : Res := onTwin (.lease f) 9 0 f s fun f s => takeLease s (parseLease f)

/-! ## The link (R472 to R475) -/

def ropeFitted (w : Work) : Bool := !w.fuses.gradeS

/-- ROPE_LINK_UP: modes and SEATs have been exchanged. -/
def ropeUp (s : State) (mode seat : Nat) (dev : BitVec 16) : State :=
  let mine := od s.work 0x8100
  let p := getPort s.work 8
  let p := if p.state = 2 ∨ p.state = 3 then p
    else { linkFresh p with linkDue := true, lanes := BitVec.allOnes 18, spares := s.misc.ropeUsed, half := false }
  let w := setPort s.work 8 { p with state := 2, neigh := some dev, neighSeat := seat = 1 }
  let s := { s with work := flush (linkSend w 8) 8
                    twin := { s.twin with twinMode := some mode } }
  if s.twin.seatConf then s
  else if seat = b2n s.work.fuses.seat then
    let w := raise { s.work with duplex := false, share := false } srcRope 0x62 0 0
    applyRole { s with work := w, twin := { s.twin with seatConf := true, role := 0, pair := 0 } }
  else if mode ≠ mine then
    applyRole { s with work := { s.work with duplex := false, share := false }, twin := { s.twin with role := 0, pair := 4 } }
  else if mine = 1 && !s.twin.detached then sendLease (applyRole { s with work := { s.work with duplex := true, share := false } })
  else if mine = 2 then
    applyRole { s with work := { s.work with duplex := false, share := true }, twin := { s.twin with role := 0, pair := 1 } }
  else applyRole { s with work := { s.work with duplex := false, share := false }, twin := { s.twin with role := 0, pair := 0 } }

/-- Whether the serial links work: with the rails on and SYSCLK, once bring-up has trained them (R535, R560). -/
def linksMay (s : State) : Bool := s.pwr.railsUp && s.it.sysclk && s.work.dstate ≠ .init

def execRopeLinkUp (mode seat : Nat) (dev : BitVec 16) (s : State) : Res :=
  .next (if ropeFitted s.work && linksMay s then ropeUp s mode seat dev else s)

/-- The Rope goes down (R472, R493). -/
def ropeLost (s : State) : State :=
  let p := getPort s.work 8
  let s := { s with work := setPort s.work 8 { linkFresh p with state := 4, downEvt := true, credit := [] } }
  if s.twin.role = 1 then degrade s else applyRole s

/-- ROPE_LANE_FAIL (R472) of a lane that carries traffic: spare, spare, half width, down. Lanes 16 and 17 are the spares as built; no
register of the Rope shows its lanes: the model keeps those that have not failed. -/
def ropeLaneFail (s : State) (lane : Nat) : State :=
  let p := getPort s.work 8
  let w := s.work
  if (p.state ≠ 2 && p.state ≠ 3) || !p.lanes.getLsbD lane then s
  else if p.spares < 2 then
    let p := { p with spares := p.spares + 1, state := 3, lanes := setBit p.lanes lane false }
    { s with work := raise (setPort w 8 p) srcRope 0x60 0 0, misc := { s.misc with ropeUsed := min 2 (s.misc.ropeUsed + 1) } }
  else if !p.half then
    { s with work := raise (setPort w 8 { p with half := true, lanes := setBit p.lanes lane false }) srcRope 0x60 0 0 }
  else
    let s := ropeLost s
    { s with work := raise s.work srcRope 0x61 0 0 }

def execRopeLaneFail (lane : Nat) (s : State) : Res := onUnit "Rope lane" 18 lane s fun s => ropeLaneFail s lane

/-- ROPE_RETRAIN_DONE. -/
def execRopeRetrainDone (s : State) : Res :=
  let p := getPort s.work 8
  .next (if p.state = 3 then { s with work := flush (linkSend (setPort s.work 8 { p with state := 2 }) 8) 8 } else s)

/-! ## Witness and commands (R491, R496) -/

/-- A standby whose witness gives no verdict (R491). -/
def orphan (s : State) : State :=
  applyRole { s with twin := { s.twin with role := 3, query := false }, work := raise s.work srcRope 0x65 0 0 }

/-- LEASE_TIMEOUT: 50 ms without a LEASE. The message that asks the host is sent by the standby itself: R480 keeps back those of its work
(log entry 140). -/
def execLeaseTimeout (s : State) : Res :=
  let t := s.twin
  if !s.work.duplex || t.role ≠ 2 || t.query || decide (s.work.now.toNat < t.lastLease.toNat + 500000) then .next s
  else
    let ask := { s with twin := { t with query := true, queryAt := s.work.now } }
    match od s.work 0x8105 with
    | 0 => .next (orphan s)
    | 1 => .next { ask with work := msixOut ask.work 0 }
    | _ => .next ask

/-- WITNESS_WAIT_EXPIRY. -/
def execWitnessWaitExpiry (s : State) : Res :=
  let t := s.twin
  if t.query && decide (t.queryAt.toNat + od s.work 0x8106 ≤ s.work.now.toNat) then .next (orphan s) else .next s

/-- TwinWitnessVerdict (R491): 1 UNREACHABLE, 2 ALIVE. -/
def witnessVerdict (s : State) (v : Nat) : State × Nat :=
  let t := s.twin
  if !s.work.duplex || !(t.query || t.role = 3) then (s, stWrongState)
  else if v = 1 then (promote s true, stOk)
  else (applyRole { s with twin := { t with query := false, pair := 2, lastLease := s.work.now } }, stOk)

/-- TwinCmd (R491, R496): 1 DETACH, 2 REJOIN, 3 PROMOTE. -/
def twinCmd (s : State) (v : Nat) : State × Nat :=
  let t := s.twin
  match v with
  | 1 =>
    if !s.work.duplex then (s, stWrongState)
    else
      let s := { s with work := sendCtrl s.work 8 0 0 [] }
      (applyRole { s with work := { s.work with duplex := false }
                          twin := { s.twin with role := 0, pair := 0, detached := true, query := false } }, stOk)
  | 2 =>
    if t.role = 1 || od s.work 0x8100 ≠ 1 || t.twinMode ≠ some 1 || t.seatConf then (s, stWrongState)
    else
      (sendLease (applyRole { s with work := { s.work with duplex := true }
                                     twin := { t with role := 0, detached := false, query := false } }), stOk)
  | _ => if s.work.duplex && t.role = 3 then (promote s true, stOk) else (s, stWrongState)

/-- A CTRL DETACH frame (R496): the other twin is primary, with its term unchanged. -/
def execCtrlDetach (f : Frame) (s : State) : Res :=
  onTwin (.ctrlDetach f) 10 8 f s fun _ s => if s.twin.role = 1 then degrade s else promote s false

/-! ## Digests (R485, R487) -/

/-- An epoch digest freed on agreement. -/
def freeDigest (s : State) (lead : Nat) (e : W64) : State :=
  { s with
    work := { s.work with digests := s.work.digests.filter fun d => !(d.1 = lead && d.2.1 = e) }
    twin := { s.twin with
      closedAt := s.twin.closedAt.filter fun d => !(d.1 = lead && d.2.1 = e)
      rxDig := s.twin.rxDig.filter fun d => !(d.1 = lead && d.2.1 = e)
      sentDig := s.twin.sentDig.filter fun d => !(d.1 = lead && d.2 = e)
      agreed := let old := Tab.get (bvD 64) s.twin.agreed lead
                Tab.set (bvD 64) s.twin.agreed lead (if old.toNat < e.toNat then e else old) } }

/-- A mismatch or lag of a tenancy (R488, step 1), on the twin that finds it or is told of it. -/
def mismatch (s : State) (t kind epoch : Nat) : State :=
  let w := raise s.work srcBasecamp kind t epoch
  let w := setTen w t { getTen w t with preempt := true }
  { s with work := w, twin := { s.twin with
      mism := Tab.set zeroD s.twin.mism t (s.work.now.toNat + 1)
      myTest := Tab.set (fun _ => none) s.twin.myTest t none, hisTest := Tab.set (fun _ => none) s.twin.hisTest t none } }

/-- The primary starts R488 for the party's tenancy, unless it is under way. -/
def findMismatch (s : State) (lead kind : Nat) (e : W64) : State :=
  let t := tenOfSpur s.work lead
  if Tab.get zeroD s.twin.mism t ≠ 0 then s
  else
    let s := mismatch s t kind (fld e 0 48)
    { s with work := sendCtrl s.work 5 t kind [] }

/-- One received digest of an epoch that both twins have closed (R487, steps 2 to 4). Digests found unequal have been compared. -/
def compareOne (s : State) (d : Nat × W64 × BitVec 128 × W64) : State :=
  let (lead, e, sum, _) := d
  if !s.twin.closedAt.any fun c => c.1 = lead && c.2.1 = e then s
  else if digestOf s.work lead e = sum then
    let s := freeDigest s lead e
    { s with work := sendCtrl s.work 4 (tenOfSpur s.work lead) lead (natLe 8 e.toNat) }
  else
    let s := findMismatch s lead 0x63 e
    { s with twin := { s.twin with rxDig := s.twin.rxDig.filter (fun q => !(q.1 = lead && q.2.1 = e))
                                   closedAt := s.twin.closedAt.filter fun q => !(q.1 = lead && q.2.1 = e) } }

/-- Epochs closed on one twin and open on the other for TwinLagLimit ticks (R487, step 5). -/
def lagging (s : State) : List (Nat × W64) :=
  let limit := od s.work 0x810B
  let late := fun (t : W64) => decide (t.toNat + limit ≤ s.work.now.toNat)
  ((s.twin.closedAt.filter fun c => late c.2.2 && !s.twin.rxDig.any fun d => d.1 = c.1 && d.2.1 = c.2.1).map fun c => (c.1, c.2.1)) ++
    ((s.twin.rxDig.filter fun d => late d.2.2.2 && !s.twin.closedAt.any fun c => c.1 = d.1 && c.2.1 = d.2.1).map fun d => (d.1, d.2.1))

/-- The primary compares what both have closed, then looks for lags, those of a tenancy that the standby runs too (R497). -/
def compareAll (s : State) : State :=
  let s := s.twin.rxDig.foldl compareOne s
  ((lagging s).filter fun d => s.twin.paired.getLsbD (tenOfSpur s.work d.1)).foldl (fun s d => findMismatch s d.1 0x64 d.2) s

/-- A DIGEST frame of a closed epoch (Table 16.1). -/
def sendDigest (s : State) (lead : Nat) (e : W64) : State :=
  let p := natLe 8 e.toNat ++ natLe 1 lead ++ zeros 7 ++ natLe 16 (digestOf s.work lead e).toNat
  let f := { ropeFrame s.work 11 with len := 1, srcTen := tenOfSpur s.work lead, payload := padTo 128 0 p }
  { s with work := sendRope s.work f, twin := { s.twin with sentDig := s.twin.sentDig ++ [(lead, e)] } }

/-- An EPOCH action (R487). -/
def epochAction (s : State) : State :=
  if !s.work.duplex then s
  else if s.twin.role = 2 then
    (s.twin.closedAt.filter fun c => !decide ((c.1, c.2.1) ∈ s.twin.sentDig)).foldl (fun s c => sendDigest s c.1 c.2.1) s
  else if s.twin.role = 1 && (s.twin.pair = 1 || s.twin.pair = 3) then compareAll s
  else s

/-- DIGEST: the primary keeps it and compares what both have closed. -/
def takeDigest (s : State) (f : Frame) : State :=
  if s.twin.role ≠ 1 then s
  else
    let p := padTo 128 0 f.payload
    let d := (leNat ((p.drop 8).take 1) % 16, BitVec.ofNat 64 (leNat (p.take 8)), BitVec.ofNat 128 (leNat ((p.drop 16).take 16)), s.work.now)
    compareOne { s with twin := { s.twin with rxDig := s.twin.rxDig ++ [d] } } d

def execDigest (f : Frame) (s : State) : Res := onTwin (.digest f) 11 0 f s fun f s => takeDigest s f

/-- AGREE. -/
def execAgree (f : Frame) (s : State) : Res :=
  onTwin (.agree f) 10 4 f s fun f s => freeDigest s (fld f.addr 0 4) (BitVec.ofNat 64 (leNat ((padTo 128 0 f.payload).take 8)))

/-! ## After a mismatch (R488) -/

/-- STOP_TEN: the tenancy is pre-empted and its self-test starts. -/
def execStopTen (f : Frame) (s : State) : Res :=
  onTwin (.stopTen f) 10 5 f s fun f s => mismatch s (f.srcTen % 16) (fld f.addr 0 8) 0

def testD : Nat → Option Bool := fun _ => none

/-- Both results are known. -/
def weighTests (s : State) (t : Nat) : State :=
  match Tab.get testD s.twin.myTest t, Tab.get testD s.twin.hisTest t with
  | some mine, some his =>
    let primary := s.twin.role = 1
    let s := { s with twin := { s.twin with mism := Tab.set zeroD s.twin.mism t 0 } }
    let resetT := fun (s : State) => (tenReset s t).1
    match mine, his with
    | true, true => if primary then resetT { s with work := sendCtrl s.work 7 t 0 [] } else s
    | true, false => if primary then resetT (degrade s) else resetT (promote s true)
    | false, true => fence s
    | false, false => s
  | _, _ => s

/-- Self-test leaves Ledge and vector registers zero and the zero map clear (R545). -/
def testCrag (w : Work) (c : Nat) : Work :=
  setCrag w c { getCrag w c with ledge := [], lpois := [], zmap := [], vregs := [], vpois := [] }

/-- SELF_TEST_COMPLETE on this twin (R488, R545): what failed of the tenancy is recorded and sent to be spared, and the result is sent to the
twin and weighed. -/
def selfTestDone (s : State) (t : Nat) (r : TestResult) : State :=
  if Tab.get zeroD s.twin.mism t = 0 || (Tab.get testD s.twin.myTest t).isSome then s
  else
    let crags := r.crags.filter fun p => (logicalOf s.work (p / 256) (p % 256)).any fun c => tenOfCrag s.work c = t
    let summits := r.summits.filter fun n => decide (n < 16) && tenOfSpur s.work n = t
    let pass := crags = [] && summits = []
    let w := testFails ((tenCrags s.work t).foldl testCrag s.work) crags summits
    let w := sendCtrl w 6 t (b2n pass) []
    weighTests { s with work := w, pwr := { s.pwr with selfTest := s.pwr.selfTest ||| selfTestBits crags summits }, twin := { s.twin with myTest := Tab.set testD s.twin.myTest t (some pass) } } t

def execSelfTestComplete (t : Nat) (r : TestResult) (s : State) : Res :=
  onUnit "tenancy" 16 t s fun s => settleS (.selfTestComplete t r) s (selfTestDone s t r)

/-- The twin's result. -/
def hisResult (s : State) (t : Nat) (pass : Bool) : State :=
  if Tab.get zeroD s.twin.mism t = 0 || (Tab.get testD s.twin.hisTest t).isSome then s
  else weighTests { s with twin := { s.twin with hisTest := Tab.set testD s.twin.hisTest t (some pass) } } t

def execSelftest (f : Frame) (s : State) : Res := onTwin (.selftest f) 10 6 f s fun f s => hisResult s (f.srcTen % 16) (fld f.addr 0 1 = 1)

/-- A result that has not come counts as failed, this twin's own too. -/
def lateResults (s : State) (t : Nat) : State :=
  let put := fun (l : Tab (Option Bool)) => if (Tab.get testD l t).isSome then l else Tab.set testD l t (some false)
  weighTests { s with twin := { s.twin with myTest := put s.twin.myTest, hisTest := put s.twin.hisTest } } t

/-- SELFTEST_RESULT_TIMEOUT: 1 s without both results. -/
def execSelftestResultTimeout (t : Nat) (s : State) : Res :=
  onUnit "tenancy" 16 t s fun s =>
    let began := Tab.get zeroD s.twin.mism t
    if began ≠ 0 ∧ began + 10000000 ≤ s.work.now.toNat + 1 then settleS (.selftestResultTimeout t) s (lateResults s t) else s

/-- RESET_TEN: the tenancy is reset on the receiving twin as well (R399). -/
def execResetTen (f : Frame) (s : State) : Res := onTwin (.resetTen f) 10 7 f s fun f s => (tenReset s (f.srcTen % 16)).1

/-! ## Copy (R496, R497) -/

/-- A COPY frame writes memory through the slices, without charge to a tenancy's requests but tenancy 0's. -/
def takeCopy (s : State) (f : Frame) : State :=
  if s.twin.role ≠ 2 then s
  else
    let n := min f.len 2
    let blocks := (List.range n).map fun j => (f.addr.toNat / 128 * 128 + 128 * j, (padTo 128 0 (f.payload.drop (128 * j))).take 128, framePois f j)
    let w := blocks.foldl (fun w b => writePa w (reqPort 0 0) b.1 b.2.1 b.2.2) s.work
    let p := getPort w 8
    { s with work := setPort w 8 { p with copyBytes := bump p.copyBytes (128 * n) } }

def execCopy (f : Frame) (s : State) : Res :=
  onTwin (.copy f) 13 0 f s fun f s => takeCopy s f

/-- COPY_DONE: the pair is PAIRED; tenancies that ran through the copy stay unpaired until reset or enabled. -/
def execCopyDone (s : State) : Res :=
  .next (if s.twin.pair = 3 && (s.twin.role ≠ 1 || decide (2 ^ 48 ≤ s.twin.copyAt)) then applyRole { s with twin := { s.twin with pair := 1 } } else s)

/-- One COPY frame of the resilver copy (R496): two blocks from the copy position, when memory lies there and VC4 has credit. -/
def copyTick (s : State) : State :=
  if !(s.work.fwding && s.twin.pair = 3) || decide (2 ^ 48 ≤ s.twin.copyAt) then s
  else
    let a := s.twin.copyAt
    let past := { s with twin := { s.twin with copyAt := a + 256 } }
    if paStatus s.work a = .ok && paStatus s.work (a + 128) = .ok then
      let b0 := peekBlock s.work a
      let b1 := peekBlock s.work (a + 128)
      let w := sendCopy s.work 0 a (b0.1 ++ b1.1) (b2n b0.2 + 2 * b2n b1.2)
      if w.hold.isSome then s else { past with work := w }
    else past

end Sys2Proof.Machine
end

