-- ==== Sys2Proof/Machine/View.lean ====
section
/-! DEFINITION. What the registers of BAR0 read (Tables 2.10 to 2.14, 3.6 to 3.11, 4.7, 5.10, 6.6, 7.10, 8.8, 9.8 to 9.13, 10.4 to 10.9,
11.8 to 11.13, 12.6, 13.6, 14.6 to 14.8, 15.3 to 15.12, 16.6, 16.7, 17.4, 17.5). Each window gives the register at an offset: its width,
its value, and whether it is a counter (R384). -/

namespace Sys2Proof.Machine

/-- A register as read. -/
structure RegV where
  bits  : Nat
  val   : Nat
  cnt   : Bool
  deriving DecidableEq, Repr

def r32 (v : Nat) : Option RegV := some ⟨32, v % 2 ^ 32, false⟩
def r64 (v : Nat) : Option RegV := some ⟨64, v % 2 ^ 64, false⟩
def c32 (v : Nat) : Option RegV := some ⟨32, v % 2 ^ 32, true⟩
def c64 (v : Nat) : Option RegV := some ⟨64, v % 2 ^ 64, true⟩

/-- Index of an offset in an array of registers. -/
def idxIn (off base stride n : Nat) : Option Nat :=
  if base ≤ off ∧ (off - base) % stride = 0 ∧ (off - base) / stride < n then some ((off - base) / stride) else none

/-! ## Summit window -/

def SumState.code : SumState → Nat
  | .reset => 0 | .loading => 1 | .halted => 2 | .running => 3 | .ganged => 4 | .faulted => 5

def summitStatus (m : Summit) : Nat :=
  let issueStall := match m.stall with | some (.issue ..) => true | _ => false
  let sumWait := match m.stall with | some (.sum ..) => true | _ => false
  flds [(0, m.state.code), (3, b2n issueStall), (4, b2n sumWait), (5, b2n m.loadErr), (6, b2n m.cfgRefused), (7, b2n m.brk),
        (8, m.lead), (16, m.spurs.toNat)]

/-- The Summit window (Table 2.10). In the window of a ganged Summit, SUMMIT_PARTY shows its leader and its party's mask, as SUMMIT_STATUS
does (log entry 125). -/
def summitReg (w : Work) (n off : Nat) : Option RegV :=
  let m := getSummit w n
  match off with
  | 0x000 => r32 0
  | 0x004 => r32 (summitStatus m)
  | 0x008 => r32 (m.spurs.toNat + m.lead * 2 ^ 16)
  | 0x010 => r64 m.imemSrc.toNat
  | 0x018 => r64 m.dmemSrc.toNat
  | 0x020 => r32 m.imemLen.toNat
  | 0x024 => r32 m.dmemLen.toNat
  | 0x028 => r32 m.pcStart.toNat
  | 0x030 => r64 m.pc.toNat
  | 0x038 => c64 m.issued.toNat
  | 0x040 => c64 m.stallCyc.toNat
  | 0x048 => r64 m.mcause.toNat
  | 0x050 => r64 m.mepc.toNat
  | _ => (idxIn off 0x100 8 16).bind fun k => r64 (Tab.get (bvD 64) m.sums k).toNat

/-! ## Crag window -/

/-- Whether a wait with BOTH set holds the other unit (R274): from its dispatch on. -/
def bothHolds (x : Crag) (u : Nat) : Bool := x.ops.any fun o => opcOf o.pkt = 0x81 && bit o.pkt 148 && decide (o.unit ≠ u)

/-- AU_STATE or EU_STATE (Table 2.14): a unit in a wait, or held by one with BOTH, waits on a Belay (R274), a unit in a TAKE waits for a
task (R295), whatever else runs on it; otherwise its oldest op shows. -/
def unitState (x : Crag) (u : Nat) : Nat :=
  let here := fun (c : Nat) => x.ops.any fun o => o.onBelayOrTask && decide (o.unit = u) && decide (opcOf o.pkt = c)
  if x.fe.frozen then 6
  else if here 0x81 || bothHolds x u then 4
  else if here 0x84 then 5
  else
    match x.ops.find? fun o => o.unit = u with
    | none => 0
    | some o =>
      if (stallQueue x o).isSome then 3
      else if !o.started && sbHeld x o then 2
      else 1

/-- FIFO slots that Tally loops retain: the outermost loop with its body (R61), counted whole from the moment it becomes active, those of
its packets included that have not arrived yet (log entry 126). -/
def retained (x : Crag) : Nat :=
  match x.fe.loops.getLast? with
  | none => 0
  | some l => l.len + 1

def queueReg (x : Crag) (q : Nat) : Nat :=
  let v := getQueue x q
  let pushWait := qFull x q && x.ops.any fun o => o.outQ.any fun e => e.1 = q
  let popWait := x.ops.any fun o => decide (q ∈ popWaits x o)
  flds [(0, v.head), (8, v.tail), (16, v.ents.length), (24, b2n pushWait), (25, b2n popWait), (26, b2n (v.ents.any (·.poison)))]

/-- Members of a vector chain that is still being dispatched, those that execute (R53, R54, R192). -/
def chainHeld (x : Crag) : List Packet := ((x.fe.chain.zip x.fe.chainSel).filter fun e => e.2).map (·.1)

/-- A region declared by an op not yet completed (CRAG_SBHELD). -/
def declared (x : Crag) (r : Nat) : Bool :=
  (chainHeld x ++ x.ops.flatMap Op.packets).any fun p => regionIn (rdBase p) (rdCnt p) r || regionIn (wrBase p) (wrCnt p) r

/-- The op that the scoreboard keeps from taking a free channel. -/
def chHeldOp (x : Crag) (k : Nat) : Option Op :=
  if (getChan x k).state ≠ 0 || x.fe.frozen then none
  else x.ops.find? fun o => isStream (opcOf o.pkt) && decide (strmCh o.pkt = k) && o.stage = .dispatched && sbHeld x o

/-- CH_STATE.STATE (Table 3.11) of the op in the channel: what keeps it from starting, else as it stands. -/
def chState (w : Work) (c k : Nat) : Nat :=
  let x := getCrag w c
  let h := getChan x k
  match findOp x h.op with
  | some o => if o.stage = .ordered && h.state ≠ 0 && !x.fe.frozen then (startWait w c o h.desc).getD 1 else h.state
  | none => h.state

/-- CH_STATE: of the op in the channel, or of the one that a Ledge hold keeps from it. -/
def chStateReg (w : Work) (c k : Nat) : Nat :=
  let h := getChan (getCrag w c) k
  match chHeldOp (getCrag w c) k with
  | some o => flds [(0, 2), (8, opcOf o.pkt), (16, seqOf o.pkt)]
  | none => flds [(0, chState w c k), (8, h.opc.toNat), (16, h.seq.toNat), (24, b2n h.poisonSeen), (25, b2n h.pfFail)]

def chanReg (w : Work) (c k off : Nat) : Option RegV :=
  let h := getChan (getCrag w c) k
  match off with
  | 0x00 => r32 (chStateReg w c k)
  | 0x04 => c32 h.done.toNat
  | 0x08 => r64 h.faultVa.toNat
  | 0x24 => r32 h.idxPos.toNat
  | _ => (idxIn off 0x10 4 5).bind fun k => r32 (h.pos.getD k 0 % 2 ^ 24)

/-- State of an engine that a party stop has frozen while it was at work. -/
def orFrozen (x : Crag) (st frozen : Nat) : Nat := if x.fe.frozen && st ≠ 0 then frozen else st

/-- CRAG_VSTAT (Table 6.7): the chain that runs, else one still without all its members, else one that the scoreboard or a queue end holds,
else the last that ran. Fields STATE, MEMBERS, OPC and SEQ. -/
def vStat (x : Crag) : List (Nat × Nat) :=
  let row := fun (st links : Nat) (p : Packet) => [(0, orFrozen x st 4), (3, links), (8, opcOf p), (16, seqOf p)]
  if x.ex.vstate ≠ 0 then [(0, orFrozen x x.ex.vstate 4), (3, x.ex.vmembers), (8, x.ex.vopc.toNat), (16, x.ex.vseq.toNat)]
  else
    match chainHeld x, x.ops.find? fun o => isChainOp o.pkt && !o.started && (sbHeld x o || queueHeld x o) with
    | h :: _, _ => row 2 (vLinks h) h
    | [], some o => row 3 o.members.length o.pkt
    | [], none => [(0, 0), (3, x.ex.vmembers), (8, x.ex.vopc.toNat), (16, x.ex.vseq.toNat)]

def bstat (x : Crag) : Nat :=
  let waits := x.ops.filter fun o => o.stage = .waiting && opcOf o.pkt = 0x81
  let both := x.ops.any fun o => opcOf o.pkt = 0x81 && bit o.pkt 148
  let first := waits.foldl (fun (b : Option Op) o => match b with
    | some p => if o.regNo < p.regNo then some o else b
    | none => some o) none
  let oldest := (first.bind fun o => o.targets.head?.map (·.1)).getD 0
  flds [(0, b2n (waits.any fun o => o.unit = 0)), (1, b2n (waits.any fun o => o.unit = 1)), (2, b2n both),
        (3, b2n x.ac.bAbandoned), (4, b2n x.ac.bTimeout), (5, b2n x.ac.bRange), (8, oldest)]

def tstat (x : Crag) : Nat :=
  let takes := x.ops.filter fun o => o.stage = .waiting && opcOf o.pkt = 0x84
  flds [(0, ((List.range 4).map fun s => b2n (getSlot x s).isSome * 2 ^ s).sum), (4, b2n (takes.any fun o => o.unit = 0)),
        (5, b2n (takes.any fun o => o.unit = 1)), (6, b2n x.ac.tSlotBusy), (7, b2n x.ac.tDoneEmpty), (8, b2n x.ac.tReturned)]

/-- CRAG_EMBSTAT.STATE: an EUPD that has sent all its updates still waits on a hold while one of them meets a full one (Table 8.9, R259). -/
def embShown (w : Work) (c : Nat) (x : Crag) : Nat :=
  if x.ac.embState = 1 && isEupd x.ac.embOpc.toNat && (x.ops.any fun o => isEupd (opcOf o.pkt) && o.started && eupdBlocked w c o.n) then 4
  else x.ac.embState

/-- The first half of the Crag window: front end, queues, streams, fabric, GME. -/
def cragReg1 (w : Work) (c : Nat) (x : Crag) (off : Nat) : Option RegV :=
  match off with
  | 0x000 => r32 (flds [(0, c), (8, cragPhys w c / 256 % 2), (16, cragPhys w c % 256), (24, spurOf w c % 8)])
  | 0x004 => r32 (flds [(0, unitState x 0), (3, unitState x 1), (6, b2n x.fe.frozen), (7, b2n x.bivouac), (8, b2n x.refused)])
  | 0x008 => r32 (flds [(0, x.fe.fifo.length), (8, retained x), (16, x.fe.peak)])
  | 0x00C => r32 (flds [(0, x.fe.seqDisp.toNat), (8, x.fe.seqAu.toNat), (16, x.fe.seqEu.toNat)])
  | 0x010 => r32 0
  | 0x060 => r32 (flds [(0, (x.fe.loops.map fun l => 2 ^ l.ctr).sum), (8, ((List.range 4).map fun k => b2n (cmpOut x k) * 2 ^ k).sum)])
  | 0x100 => r32 x.region.qdl.toNat
  | 0x104 => r32 (flds [(0, x.region.state), (2, b2n x.region.lateTol), (3, b2n x.region.lateLimit), (8, x.region.seq.toNat)])
  | 0x108 => c32 x.region.timer.toNat
  | 0x10C => c32 (flds [(0, min 65535 x.region.waitAu), (16, min 65535 x.region.waitEu)])
  | 0x110 => r32 x.ex.fflags.toNat
  | 0x114 => r32 x.ex.fcw.toNat
  | 0x118 => c64 x.ex.fbusy.toNat
  | 0x120 => r32 (flds [(0, orFrozen x x.ex.gstate 6), (3, b2n x.ex.gtail), (8, x.ex.gopc.toNat), (16, x.ex.gseq.toNat)])
  | 0x124 => r32 x.ex.spth.toNat
  | 0x128 => c32 x.ex.gsparse.toNat
  | 0x12C => c32 x.ex.gdense.toNat
  | 0x130 => c32 x.ex.gguard.toNat
  | _ => none

/-- The second half: Vector Engine, gather, embedding, Belays and tasks. -/
def cragReg2 (w : Work) (c : Nat) (x : Crag) (off : Nat) : Option RegV :=
  let sel := x.ex.vrsel.toNat
  match off with
  | 0x140 => r32 (flds (vStat x))
  | 0x144 => r32 x.ex.vflags.toNat
  | 0x180 => c64 x.ex.vbusy.toNat
  | 0x188 => r32 sel
  | 0x190 => r64 (((List.range 64).map fun j => b2n (Tab.get falseD x.vpois (64 * sel + j)) * 2 ^ j).sum)
  | 0x1A0 => r32 (flds [(0, orFrozen x x.ac.gthState 5), (8, x.ac.gthOpc.toNat), (16, x.ac.gthSeq.toNat), (24, b2n x.ac.gthPois)])
  | 0x1A4 => r32 x.ac.hubTh.toNat
  | 0x1A8 => r32 x.ac.hubSeg.toNat
  | 0x1AC => c32 x.ac.hubCtr.toNat
  | 0x1B0 => c32 x.ac.hubInl.toNat
  | 0x1B4 => c32 x.ac.gin.toNat
  | 0x1B8 => c32 x.ac.gout.toNat
  | 0x1BC => r32 x.ac.goutst
  | 0x1C0 => r32 (flds [(0, orFrozen x (embShown w c x) 6), (8, x.ac.embOpc.toNat), (16, x.ac.embSeq.toNat), (24, b2n x.ac.embPois)])
  | 0x1C4 => r32 (flds [(0, x.ac.embGen.toNat), (16, x.ac.embTable.toNat)])
  | 0x1C8 => c32 x.ac.embDef.toNat
  | 0x1CC => c32 x.ac.euSkip.toNat
  | 0x1D0 => c32 x.ac.euPois.toNat
  | 0x1D4 => c32 x.ac.migRef.toNat
  | 0x1D8 => c32 x.ac.embCold.toNat
  | 0x1E0 => r32 (bstat x)
  | 0x1E8 => r32 (tstat x)
  | 0x1EC => c32 x.ac.tTaken.toNat
  | 0x1F0 => c64 x.ac.bivCyc.toNat
  | _ => none

/-- The arrays of the window. CRAG_TIDXn of an inactive counter reads 0 (log entry 150: the spec gives 0 for SSRC 2 and R55 only). -/
def cragArr (w : Work) (c off : Nat) : Option RegV :=
  let x := getCrag w c
  match idxIn off 0x020 4 8, idxIn off 0x040 4 8, idxIn off 0x080 4 8, idxIn off 0x0C0 4 16 with
  | some k, _, _, _ => r32 (Tab.get u32D x.fe.counts k).toNat
  | _, some k, _, _ => r32 ((tallyIter x k).getD 0)
  | _, _, some k, _ => r32 (((List.range 32).map fun b => b2n (declared x (32 * k + b)) * 2 ^ b).sum)
  | _, _, _, some k => r32 (queueReg x k)
  | _, _, _, _ =>
    match idxIn off 0x148 8 7, idxIn off 0x400 4 64, idxIn off 0x500 4 4 with
    | some k, _, _ => r64 (Tab.get (bvD 64) x.ex.vlanef k).toNat
    | _, some k, _ => r32 (Tab.get u32D x.vregs (64 * x.ex.vrsel.toNat + k)).toNat
    | _, _, some k =>
      match getSlot x k with
      | some t => r32 (flds [(0, t.flow), (20, t.list), (31, 1)])
      | none => r32 0
    | _, _, _ => if 0x200 ≤ off ∧ off < 0x400 then chanReg w c ((off - 0x200) / 64) (off % 64) else none

def cragReg (w : Work) (c off : Nat) : Option RegV :=
  let x := getCrag w c
  match cragReg1 w c x off with
  | some r => some r
  | none =>
    match cragReg2 w c x off with
    | some r => some r
    | none => cragArr w c off

/-! ## Other windows -/

def belayReg (w : Work) (b off : Nat) : Option RegV :=
  let x := getBelay w b
  match off with
  | 0x000 => r32 (flds [(0, b), (16, (belayOwner w b).getD 0), (20, b2n (belayOwner w b).isSome)])
  | 0x004 => r32 (flds [(0, x.waiters.length), (10, b2n x.sat), (11, b2n x.refused), (12, b2n x.abandoned)])
  | 0x008 => r64 x.value.toNat
  | 0x010 => r64 0
  | 0x018 => r64 0
  | 0x020 => r32 x.lastSig.toNat
  | 0x028 => r64 x.lastIt.toNat
  | _ => (idxIn off 0x040 8 4).bind fun k =>
      r64 (((List.range 4).map fun i =>
        (match x.waiters[4 * k + i]? with
         | some q => q.crag + q.unit * 256
         | none => 0xFFFF) * 2 ^ (16 * i)).sum)

def sliceReg (w : Work) (d bank off : Nat) : Option RegV :=
  let s := getSlice w d
  match off with
  | 0x000 => r32 (d + 4)
  | 0x004 => r32 (flds [(0, b2n s.enabled), (1, b2n s.sweep), (2, b2n s.dirtyRef), (3, b2n s.refused), (4, b2n s.lost),
                        (16, s.waySweep.toNat)])
  | 0x008 => r32 (b2n s.enabled)
  | 0x00C => r32 s.wayEn.toNat
  | 0x010 => r32 s.wayPwr.toNat
  | 0x014 => r32 s.noAlloc.toNat
  | 0x018 => r32 s.wayRet.toNat
  | 0x01C => r32 (dirtyLines s (BitVec.allOnes 16))
  | 0x020 => r64 (Tab.get (bvD 48) s.cmoAddr bank).toNat
  | 0x028 => r32 (Tab.get (bvD 32) s.cmoLen bank).toNat
  | 0x02C => r32 0
  | 0x030 => r32 (flds [(0, b2n s.cmoBusy), (1, b2n s.cmoDone), (2, b2n s.cmoRefused), (3, s.cmoBank)])
  | 0x034 => c32 s.cmoWb.toNat
  | 0x038 => c32 s.cmoDrop.toNat
  | 0x040 => c64 s.hits.toNat
  | 0x048 => c32 s.ce.toNat
  | 0x04C => c32 s.ue.toNat
  | _ =>
    match idxIn off 0x100 8 16, idxIn off 0x180 8 16, idxIn off 0x200 8 16, idxIn off 0x300 4 32 with
    | some t, _, _, _ => c64 (Tab.get (bvD 64) s.miss t).toNat
    | _, some t, _, _ => c64 (Tab.get (bvD 64) s.pf t).toNat
    | _, _, some t, _ => c64 (Tab.get (bvD 64) s.wb t).toNat
    | _, _, _, some g => r32 (Tab.get grpD s.grpMap g).toNat
    | _, _, _, _ => none

/-- MC_MARK: each rank's marked device. -/
def markReg (m : MemCh) : Nat := markOf m 0 + markOf m 1 * 16

/-- MC_RMENTRY: the row's rank, group, bank and row are bits of the remapped rank row number. -/
def remapReg (e : Remap) : Nat :=
  flds [(0, b2n e.valid), (1, b2n e.pending), (2, bitsN e.row 4 1), (3, bitsN e.row 0 2), (5, bitsN e.row 2 2),
        (7, bitsN e.row 5 17), (24, e.spare % 4096), (36, e.dev), (39, e.remaps % 32)]

def pprPending (m : MemCh) : Bool := m.remaps.any fun e => e.2.valid && e.2.pending

/-- Fills in flight that their channel has accepted: no hold keeps them in the slice. Its read queue has 32 entries (R348, R358). -/
def readQueue (w : Work) (c : Nat) : Nat :=
  min 32 (((List.range 4).flatMap fun d => (getSlice w d).fills).filter fun f =>
    (mapPa w f.pa).any (fun p => p.1 = c) && !spaceHeld w f.pa && !rowHeld w f.pa).length

def mcReg1 (w : Work) (c : Nat) (m : MemCh) (off : Nat) : Option RegV :=
  match off with
  | 0x000 => r32 (flds [(0, c), (5, c / 4), (8, b2n (12 ≤ c)), (9, 1)])
  | 0x004 => r32 (flds [(0, m.state), (3, b2n m.due), (4, b2n m.emerg), (5, b2n m.trainFail), (6, b2n m.refused), (7, b2n (pprPending m))])
  | 0x008 => r32 0
  | 0x00C => r32 (markReg m)
  | 0x010 => c32 m.ce.toNat
  | 0x014 => c32 m.ue.toNat
  | 0x018 => r64 m.lastErr.toNat
  | 0x020 => r32 m.rmIdx.toNat
  | 0x028 => r64 (remapReg (Tab.get remapD m.remaps m.rmIdx.toNat))
  | 0x030 => r32 m.lastPause.toNat
  | 0x034 => r32 (flds [(0, readQueue w c), (8, m.wq.length)])
  | _ => none

def mcReg2 (m : MemCh) (off : Nat) : Option RegV :=
  match off with
  | 0x040 => r32 (m.tgCtrl.toNat / 2 * 2 + b2n m.tgBusy)
  | 0x044 => r32 (flds [(0, b2n m.tgBusy), (1, b2n m.tgDone), (2, b2n m.tgFail), (3, b2n m.tgRefused)])
  | 0x048 => r64 m.tgBase.toNat
  | 0x050 => r64 m.tgLen.toNat
  | 0x058 => r32 m.tgSeed.toNat
  | 0x05C => r32 m.tgStride.toNat
  | 0x060 => c64 m.tgCount.toNat
  | 0x068 => c64 m.tgErrs.toNat
  | 0x070 => r64 m.tgFirst.toNat
  | 0x078 => r64 m.tgPinLo.toNat
  | 0x080 => r32 m.tgPinHi.toNat
  | _ => (idxIn off 0x100 4 80).bind fun j => c32 (Tab.get u32D m.pinCe j).toNat

def mcReg (w : Work) (c off : Nat) : Option RegV :=
  let m := getCh w c
  match mcReg1 w c m off with
  | some r => some r
  | none => mcReg2 m off

/-- Traverse, Rope and PCIe windows: port 0 to 7, 8, 9. -/
def portReg (s : State) (p off : Nat) : Option RegV :=
  let x := getPort s.work p
  if p = 9 then
    match off with
    | 0x000 => r32 (9 + 32)
    | 0x004 => r32 (flds [(0, s.host.pcieSt), (10, b2n s.host.downEvt), (11, if s.host.width < 16 then s.host.width else Config.width16 % 16), (15, s.host.speed % 8)])
    | _ => none
  else
    match off with
    | 0x000 => r32 (flds [(0, p), (4, b2n (4 ≤ p)), (5, 1)])
    | 0x004 =>
      if p = 8 then r32 (flds [(0, x.state), (3, x.spares), (5, b2n x.half), (6, b2n x.downEvt), (7, b2n s.twin.seatConf)])
      else r32 (flds [(0, x.state), (3, fld x.lanes 0 5), (8, b2n ((x.state = 2 || x.state = 3) && x.lanes.getLsbD 4)), (9, b2n x.half), (10, b2n x.downEvt)])
    | 0x008 => r32 (flds [(0, (x.neigh.getD 0).toNat), (16, b2n x.neigh.isSome), (17, b2n (p = 8 && x.neighSeat))])
    | 0x010 => c64 x.tx.toNat
    | 0x018 => c64 x.rx.toNat
    | 0x020 => c32 x.crcErr.toNat
    | 0x024 => c32 x.replay.toNat
    | 0x028 => c32 x.discard.toNat
    | 0x030 => if p = 8 then c64 x.fwdBytes.toNat else none
    | 0x038 => if p = 8 then c64 x.copyBytes.toNat else none
    | 0x040 => if p = 8 then c32 s.work.suppress.toNat else none
    | _ => none

/-- TenSpurs as read: tenancy 0 reads the Spurs that no other names (R389). -/
def tenSpursRead (w : Work) (t : Nat) : Nat :=
  if t = 0 then ((tenSpurs w 0).map fun s => 2 ^ s).sum else tenSpursObj w t

def tenReg (w : Work) (t off : Nat) : Option RegV :=
  let x := getTen w t
  match off with
  | 0x000 => r32 (flds [(0, t), (4, x.state), (6, b2n (hasSlice w t))])
  | 0x008 => r32 (tenSpursRead w t)
  | 0x010 => c32 x.resets.toNat
  | _ => (idxIn off 0x100 8 14).bind fun k => c64 ((tenMeters w t).getD k 0).toNat

/-! ## Selects (R424, R425) -/

/-- A selected physical Crag's logical number, when it is in service. -/
def cragSelected (w : Work) (v : Nat) : Option Nat :=
  if bitsN v 15 1 = 1 then logicalOf w (bitsN v 8 1) (v % 256)
  else if cragPresent w (v % 256) then some (v % 256) else none

/-- Whether the part has a Traverse port: grade P leaves out ports 4 to 7 (Table 0.2). -/
def portFitted (w : Work) (p : Nat) : Bool :=
  if p ≤ 7 then !(w.fuses.gradeP && decide (4 ≤ p)) else if p = 8 then ropeFitted w else p = 9

/-- A port that the grade and TravPortEnable leave in. -/
def portEnabled (w : Work) (p : Nat) : Bool := portFitted w p && w.portsOn.getLsbD p

/-- The unit that a select value names, none when absent: selects 0 to 6 of Table 14.7. -/
def selected (w : Work) (sel v : Nat) : Option Nat :=
  match sel with
  | 0 => cragSelected w v
  | 1 => if v % 32 < 24 then some (v % 32) else none
  | 2 => some (v % 4)
  | 3 => if portFitted w (v % 16) then some (v % 16) else none
  | 4 => some (v % 16)
  | 5 => some (v % 65536)
  | _ => some (v % 16)

def selVal (s : State) (bank sel : Nat) : Nat := (Tab.get u32D s.host.sel (32 * bank + sel)).toNat

/-- The unit that a bank has selected for a window. -/
def selUnit (s : State) (bank sel : Nat) : Option Nat := selected s.work sel (selVal s bank sel)

/-- The register of a window at an offset, for the unit. -/
def winReg (s : State) (bank sel unit off : Nat) : Option RegV :=
  match sel with
  | 0 => cragReg s.work unit off
  | 1 => mcReg s.work unit off
  | 2 => sliceReg s.work unit bank off
  | 3 => portReg s unit off
  | 4 => tenReg s.work unit off
  | 5 => belayReg s.work unit off
  | _ => summitReg s.work unit off

/-! ## Mailboxes, global page, collector -/

def boxReg (b : Mailbox) (page : Bool) (off : Nat) : Option RegV :=
  match off with
  | 0x000 => r32 0
  | 0x004 => r32 (flds [(0, b2n b.busy), (1, b2n b.done), (2, b2n b.malformed), (3, b2n b.overrun)])
  | 0x008 => r32 b.irq.toNat
  | 0x040 => if page then r64 0 else none
  | 0x048 => if page then r32 (flds [(0, b2n b.dbRefused), (1, b2n b.dbDiscarded), (16, b.dbRings.toNat)]) else none
  | _ => if 0x100 ≤ off ∧ off < (if page then 0x400 else 0x1000) ∧ off % 4 = 0 then r32 (leNat (Mem.read b.data off 4)) else none

def DevState.code : DevState → Nat
  | .init => 0 | .preOp => 1 | .ready => 2 | .run => 3 | .stopped => 4 | .fenced => 5

def ItSt.code : ItSt → Nat
  | .free => 0 | .acquiring => 1 | .locked => 2 | .holdover => 3 | .expired => 4 | .diverged => 5

/-- BAR2_BASE as it acts: in 1 GiB units, bits below the BAR2 size ignored (Table 15.3). -/
def bar2At (h : HostPort) : Nat := h.bar2Base.toNat % 2 ^ 48 / 2 ^ max 30 h.bar2Log * 2 ^ max 30 h.bar2Log

def globalReg (s : State) (bank off : Nat) : Option RegV :=
  match off with
  | 0x0000 => r32 0x94401FA7
  | 0x0004 => r32 s.work.dstate.code
  | 0x0040 => r64 s.work.now.toNat
  | 0x0048 => r32 (flds [(0, s.it.state.code), (3, b2n s.it.upHold), (4, s.it.hops % 256)])
  | 0x0050 => r32 s.ev.snapSeq.toNat
  | 0x0054 => r32 (b2n (Tab.get falseD s.ev.view bank))
  | 0x0058 => r64 s.ev.snapTick.toNat
  | 0x0080 => r64 s.host.bar2Base.toNat
  | 0x0088 => r32 (flds [(0, b2n s.work.epRx), (1, b2n s.work.cplErr), (2, b2n s.work.priFail), (3, b2n s.work.fenceSeen)])
  | 0x008C => c32 s.work.fenceDrop.toNat
  | 0x0090 => r32 s.host.dbEnable.toNat
  | _ => none

def wordsOf (m : Option FaultMsg) (k : Nat) : Nat := bitsN ((m.map msgBits).getD 0) (32 * k) 32

def collectorReg (s : State) (off : Nat) : Option RegV :=
  let c := s.fc
  match off with
  | 0x000 => r32 (flds [(0, b2n c.valid), (1, b2n c.overflow), (2, b2n c.fatalValid), (8, c.merged)])
  | 0x030 => c32 c.cntCe.toNat
  | 0x034 => c32 c.cntCt.toNat
  | 0x038 => c32 c.cntFa.toNat
  | 0x03C => c32 s.work.dropCe.toNat
  | 0x040 => r32 (b2n c.ceIrq)
  | _ =>
    match idxIn off 0x010 4 4, idxIn off 0x020 4 4 with
    | some k, _ => r32 (wordsOf c.first k)
    | _, some k => r32 (wordsOf c.fatal k)
    | _, _ => none

/-! ## BAR0 -/

/-- Key of a counter's shadow. -/
def regKey (sel unit off : Nat) : Nat := (sel * 65536 + unit) * 4096 + off

/-- A register's value, a counter's shadow while the bank's SNAPVIEW is set (R385). -/
def shown (s : State) (bank key : Nat) (r : RegV) : RegV :=
  if r.cnt && Tab.get falseD s.ev.view bank then { r with val := Tab.get zeroD s.ev.shadow key } else r

/-- The register at a BAR0 offset, for a bank (R424, R445, R451). Windows of absent units read all ones (R425). -/
def bar0Reg (s : State) (bank off : Nat) : Option RegV :=
  if off < 0x1000 then (globalReg s bank off).map (shown s bank (regKey 7 0 off))
  else if off < 0x2000 then (collectorReg s (off - 0x1000)).map (shown s bank (regKey 8 0 (off - 0x1000)))
  else if off < 0x3000 then boxReg (Tab.get boxD s.host.boxes 0) false (off - 0x2000)
  else if off < 0x4000 then
    match idxIn off 0x3000 8 7, idxIn off 0x3004 8 7 with
    | some k, _ => r32 (selVal s bank k)
    | _, some k => r32 (flds [(0, b2n (selUnit s bank k).isNone), (16, (Tab.get (bvD 16) s.host.selWr (32 * bank + k)).toNat)])
    | _, _ => none
  else if off < 0xB000 then
    let sel := off / 0x1000 - 4
    match selUnit s bank sel with
    | none => some ⟨64, 2 ^ 64 - 1, false⟩
    | some u => (winReg s bank sel u (off % 0x1000)).map (shown s bank (regKey sel u (off % 0x1000)))
  else if off < 0xC000 then none
  else if off < 0x10000 then boxReg (Tab.get boxD s.host.boxes ((off - 0xC000) / 0x400 + 1)) true (off % 0x400)
  else none

/-- What a naturally aligned read of 4 or 8 bytes returns (R443, R567); the latched high half of a 64-bit IT register is read
through R387's latch. Reserved offsets read zero. -/
def bar0Read (s : State) (bank off width : Nat) : Nat :=
  let word := fun (o : Nat) =>
    match bar0Reg s bank o with
    | some r => r.val % 2 ^ 32
    | none =>
      if o % 8 = 4 then
        if o = 0x44 ∨ o = 0x5C then (Tab.get u32D s.it.lowLatch (o - 4)).toNat
        else
          match bar0Reg s bank (o - 4) with
          | some r => if r.bits = 64 then r.val / 2 ^ 32 else 0
          | none => 0
      else 0
  if width = 8 then
    match bar0Reg s bank off with
    | some r => if r.bits = 64 then r.val else r.val + word (off + 4) * 2 ^ 32
    | none => word (off + 4) * 2 ^ 32
  else word off

/-- What answers a read of BAR0: Unsupported Request unless it is of 4 or 8 bytes, naturally aligned (R443). -/
def bar0Answer (s : State) (bank off width : Nat) : Out :=
  if (width = 4 ∨ width = 8) ∧ off % width = 0 then .completion (natLe width (bar0Read s bank off width)) false else .unsupported

/-- What a read of BAR4 returns: bytes of the MSI-X table and of the pending-bit array (Table 15.2). -/
def bar4Read (s : State) (o n : Nat) : List Byte :=
  (List.range n).map fun i =>
    if o + i < 0x400 then Mem.get s.host.msixTab (o + i)
    else if 0x2000 ≤ o + i ∧ o + i < 0x2008 then BitVec.ofNat 8 (s.host.pba.toNat / 2 ^ (8 * (o + i - 0x2000)))
    else 0

/-! ## Counters (R384) -/

/-- Counters of one unit of a window that do not read zero. -/
def unitCounters (s : State) (sel unit : Nat) : List (Nat × Nat) :=
  (List.range 1024).filterMap fun k =>
    match winReg s 0 sel unit (4 * k) with
    | some r => if r.cnt && r.val ≠ 0 then some (regKey sel unit (4 * k), r.val) else none
    | none => none

/-- Counters of the windows, the global page and the collector that do not read zero: a unit in its reset state has none. -/
def regCounters (s : State) : List (Nat × Nat) :=
  let w := s.work
  (w.crags.flatMap fun e => unitCounters s 0 e.1) ++ (w.chs.flatMap fun e => unitCounters s 1 e.1) ++
    (w.slices.flatMap fun e => unitCounters s 2 e.1) ++ (w.ports.flatMap fun e => unitCounters s 3 e.1) ++
    ((List.range 16).flatMap fun t => unitCounters s 4 t) ++ (w.summits.flatMap fun e => unitCounters s 6 e.1) ++
    ([0x008C].filterMap fun o => (globalReg s 0 o).map fun r => (regKey 7 0 o, r.val)) ++
    ([0x030, 0x034, 0x038, 0x03C].filterMap fun o => (collectorReg s o).map fun r => (regKey 8 0 o, r.val))

end Sys2Proof.Machine
end

