-- ==== Sys2Proof/Machine/ObjView.lean ====
section
/-! DEFINITION. What the objects of the dictionary read (R408 to R412, R425 to R428, and the object tables of every chapter). -/

namespace Sys2Proof.Machine

/-- The agents that use the object dictionary (R408, R427). -/
inductive OdAgent where
  | mgmt | mailbox | basecamp | twin
  | doorbell (t : Nat)
  deriving DecidableEq, Repr

/-- Bank numbers: host 0, Basecamp 1, OD 2, doorbell page t 3 + t (R427). -/
def OdAgent.bank : OdAgent → Nat
  | .mgmt => 2 | .mailbox => 2 | .twin => 2 | .basecamp => 1
  | .doorbell t => 3 + t

/-- The value of a select object in a bank: a doorbell page's TenancySelect and UsageTenancy are its tenancy (R428). -/
def selObj (s : State) (bank idx : Nat) : Nat :=
  if (idx = 0x4000 ∨ idx = 0x5010) ∧ 3 ≤ bank then bank - 3 else od s.work idx 0 bank

/-- The selection that an object belongs to, in a bank (R426). -/
def objSel (s : State) (bank : Nat) : OSel → Nat
  | .one => 0
  | .bank => bank
  | .memch => selObj s bank 0x3000
  | .upd => selObj s bank 0x3100
  | .ten => selObj s bank 0x4000
  | .usage => selObj s bank 0x5010
  | .event => selObj s bank 0x8010
  | .therm => selObj s bank 0x7010
  | .rail => selObj s bank 0x7020
  | .import => selObj s bank 0x1305
  | .log => selObj s bank 0x6020

/-! ## Values -/

/-- An Event Table entry as 32 bytes (Table 12.3). -/
def eventBits (e : EvEntry) : Nat :=
  flds [(0, e.tick.toNat), (64, e.action), (72, e.ten), (79, b2n e.bcamp), (80, e.arg0.toNat), (96, e.arg1.toNat),
        (128, e.period.toNat), (192, e.rept.toNat)]

def msgOf (m : Option FaultMsg) : List Byte := (m.map msgBytes).getD (zeros 16)

/-- Capability objects, reduced for the grade (R7, Table 0.2). -/
def capability (f : Fuses) (idx : Nat) : Option Nat :=
  match idx with
  | 0x1011 => some (b2n f.gradeC + 2 * b2n f.gradeN + 4 * b2n f.gradeP + 8 * b2n f.gradeS)
  | 0x1012 => some (if f.gradeC then 224 else 256)
  | 0x1016 => some (if f.gradeP then 0x0F else 0xFF)
  | 0x1017 => some (0x3F - (if f.gradeS then 4 else 0) - (if f.gradeN then 0x30 else 0))
  | _ => none

/-- Identity, management, configuration, firmware and host objects that are not plain values. -/
def objVal1 (s : State) (idx sub : Nat) : Option (List Byte) :=
  let f := s.fw
  match idx with
  | 0x1002 => some (natLe 8 s.work.fuses.serial.toNat)
  | 0x1003 => some (natLe 1 s.work.dstate.code)
  | 0x1005 => some (natLe 1 s.work.stopCause)
  | 0x1006 => some (natLe 4 (if imageVer f f.slot = 0 then Config.bootVersion else imageVer f f.slot).toNat)
  | 0x1104 => some (natLe 2 s.misc.mgmtKeyId.toNat)
  | 0x1105 => some (natLe 8 s.misc.mgmtLastSeq.toNat)
  | 0x1106 => some (natLe 4 s.misc.mgmtAuthFail.toNat)
  | 0x1200 => some (natLe 4 s.cfg.active)
  | 0x1201 => some (natLe 4 s.cfg.previous)
  | 0x1202 => some (natLe 4 s.cfg.pending)
  | 0x1203 => some (natLe 4 s.cfg.highest)
  | 0x1205 => some (natLe 1 s.cfg.phase)
  | 0x1206 => some (natLe 1 s.cfg.lastResult)
  | 0x1207 => some (natLe 1 s.cfg.pendKind)
  | 0x1209 => some (natLe 8 s.cfg.probEnd.toNat)
  | 0x120A => some (cfgDigest (if sub = 1 then s.cfg.actVals else s.cfg.pendVals))
  | 0x120B => some (natLe 4 s.cfg.rbVersion)
  | 0x120C => some (natLe 1 s.cfg.rbCause)
  | 0x120D => some (natLe 1 (b2n (cfgVals s.work ≠ s.cfg.actVals)))
  | 0x1308 => some (natLe 2 ((s.work.crags.map fun e => (e.2.chans.filter fun h => h.2.state = 3).length +
      (e.2.ops.filter fun o => match o.walk.want with
        | some (.pri _) => decide (o.stage = .reading) && !e.2.fe.frozen
        | _ => false).length).sum))
  | 0x1400 => some (natLe 1 f.slot)
  | 0x1401 => some (natLe 4 (slotVer f (sub - 1)).toNat)
  | 0x1404 => some (natLe 1 f.status)
  | 0x1406 => some (natLe 4 f.minVersion.toNat)
  | _ => none

def domainOnline (w : Work) (d : Nat) : Bool := (List.range 4).all fun i => !chOff w (4 * d + i)

/-- Scheduler, memory, channel and Update Unit objects; sel is the selected unit. -/
def objVal2 (s : State) (idx sel : Nat) : Option (List Byte) :=
  let w := s.work
  match idx with
  | 0x2323 => some (natLe 4 w.sched.trWr)
  | 0x2324 => some (natLe 4 w.sched.trDropped.toNat)
  | 0x2325 => some (natLe 4 w.sched.ready.length)
  | 0x2326 => some (natLe 4 (activeFlows w).length)
  | 0x2327 => some (natLe 2 w.sched.delay.length)
  | 0x2341 => some (natLe 1 (((List.range 6).map fun d => b2n (domainOnline w d) * 2 ^ d).sum))
  | 0x2342 => some (natLe 1 (b2n (w.spread ≠ 0 && (List.range 6).all (domainOnline w))))
  | 0x234A => some (natLe 2 w.retired.length)
  | 0x234B => some (w.retired.flatMap fun p => natLe 8 (p * 4096))
  | 0x3001 => some (natLe 1 (getCh w sel).state)
  | 0x3002 => some (natLe 8 (getCh w sel).chCe.toNat)
  | 0x3003 => some (natLe 8 (getCh w sel).chUe.toNat)
  | 0x3004 => some (natLe 1 (markReg (getCh w sel)))
  | 0x3005 => some (natLe 8 (getCh w sel).lastTrain.toNat)
  | 0x3101 => some (natLe 8 (getUpd w sel).rowsDone.toNat)
  | 0x3102 => some (natLe 2 (getUpd w sel).migs.length)
  | 0x3103 => some (natLe 2 (heldCount (getUpd w sel)))
  | 0x3104 => some (natLe 8 (getUpd w sel).slotBytes.toNat)
  | _ => none

/-- Tenancy and metering objects. -/
def objVal4 (s : State) (bank idx sel : Nat) : Option (List Byte) :=
  let w := s.work
  let x := getTen w sel
  match idx with
  | 0x4000 => some (natLe 1 (selObj s bank 0x4000))
  | 0x4001 => some (natLe 1 x.state)
  | 0x4003 => some (natLe 2 (tenSpursRead w sel))
  | 0x4010 => some (natLe 1 (b2n (hasSlice w sel)))
  | 0x4012 => some (natLe 4 x.resets.toNat)
  | 0x5002 => some (natLe 2 s.misc.usageKeyId.toNat)
  | 0x5010 => some (natLe 1 (selObj s bank 0x5010))
  | 0x5012 => (x.records.find? fun r => r.1.toNat = selObj s bank 0x5011).map (·.2)
  | 0x5013 => some (natLe 8 ((x.records.head?.map fun r => r.1.toNat).getD 0))
  | 0x5014 => some (natLe 8 (x.recSeq.toNat - 1))
  | _ => none

/-- A log record's 32 bytes (R511). -/
def recBytes (r : LogRec) : List Byte := msgBytes r.msg ++ natLe 8 r.it.toNat ++ natLe 4 r.rep ++ zeros 4

/-- Lane groups of a Ridge link by subindex, both directions (R516). -/
def ridgeBuilt (sub : Nat) : Nat := 2 * RidgeLane.groups ((sub - 1) % 8)

/-- Fault, log and spare objects. -/
def objVal6 (s : State) (idx sub sel : Nat) : Option (List Byte) :=
  let m := s.misc
  match idx with
  | 0x6000 => some (msgOf s.fc.first)
  | 0x6001 => some (msgOf s.fc.fatal)
  | 0x6002 => some (natLe 4 (if sub = 1 then s.fc.cntCe else if sub = 2 then s.fc.cntCt else s.fc.cntFa).toNat)
  | 0x6010 => some (msgOf (Tab.get tenLastD s.fc.tenLast (sub - 1)))
  | 0x6011 => some (natLe 4 (Tab.get u32D s.fc.tenSeq (sub - 1)).toNat)
  | 0x6021 => (Tab.get logD s.log.recs sel).map recBytes
  | 0x6022 => some (natLe 8 s.log.oldest.toNat)
  | 0x6023 => some (natLe 8 (s.log.next.toNat - 1))
  | 0x6024 => some (natLe 4 s.log.dropped.toNat)
  | 0x6100 => some (natLe 1 (Tab.get zeroD m.cragUsed (sub - 1)))
  | 0x6101 => some (natLe 1 (8 - Tab.get zeroD m.cragUsed (sub - 1)))
  | 0x6102 => some (natLe 1 (Tab.get zeroD m.bankUsed sub))
  | 0x6103 => some (natLe 1 (32 - Tab.get zeroD m.bankUsed sub))
  | 0x6104 => some (natLe 1 (Tab.get zeroD m.ridgeUsed sub))
  | 0x6105 => some (natLe 1 (ridgeBuilt sub - Tab.get zeroD m.ridgeUsed sub))
  | 0x6106 => some (natLe 1 m.travUsed.toNat)
  | 0x6107 => if ropeFitted s.work then some (natLe 1 m.ropeUsed) else none
  | 0x6108 => some (natLe 1 (Tab.get zeroD m.pprUsed sub))
  | 0x6109 => some (natLe 2 ((getCh s.work (sub - 1)).remaps.filter fun e => e.2.valid).length)
  | 0x610A => some (natLe 1 (((List.range 24).map fun c =>
      b2n (markOf (getCh s.work c) 0 ≠ 7) + b2n (markOf (getCh s.work c) 1 ≠ 7)).sum))
  | 0x610B => some (natLe 1 m.flashUsed)
  | 0x6110 => some (natLe 2 s.work.withdrawn.toNat)
  | 0x6111 => some ((List.range 256).flatMap fun c => natLe 2 (cragPhys s.work c))
  | _ => none

def clockRate (p : Power) : Nat := min p.kDip (min p.kTherm p.kPower)

def intD : Nat → Int := fun _ => 0

/-- Power and sensor objects; time and twin objects. -/
def objVal7 (s : State) (bank idx sub sel : Nat) : Option (List Byte) :=
  let p := s.pwr
  match idx with
  | 0x7000 => some (natLe 4 p.powerNow.toNat)
  | 0x7001 => some (natLe 8 p.pkgEnergy.toNat)
  | 0x7003 => some (natLe 1 (clockRate p))
  | 0x7004 => some (natLe 1 (b2n (decide (p.kDip < 8)) + 2 * b2n (decide (p.kTherm < 8)) + 4 * b2n (decide (p.kPower < 8))))
  | 0x7011 => some (natLe 2 (ofInt 16 (Tab.get intD p.temps sel)))
  | 0x7012 => some (natLe 2 (ofInt 16 p.hottest))
  | 0x7021 => some (natLe 2 ((Tab.get (fun _ => none) p.railMv sel).getD (Config.railReading sel s.work.now.toNat)).toNat)
  | 0x7022 => some (natLe 4 p.dips.toNat)
  | 0x7023 => some (natLe 4 p.dipLast.toNat)
  | 0x7030 => some (natLe 1 p.resetCause)
  | 0x7032 => some (natLe 36 p.selfTest.toNat)
  | 0x8000 => some (natLe 8 s.work.now.toNat)
  | 0x8003 => some (natLe 1 s.it.state.code)
  | 0x8004 => some (natLe 4 (ofInt 32 s.it.offset))
  | 0x8009 => some (natLe 1 s.it.hops)
  | 0x8011 => some (natLe 32 (eventBits (Tab.get evD s.ev.table sel)))
  | 0x8012 => some (natLe 2 (4096 - (s.ev.table.filter fun e => e.2.action ≠ 0).length))
  | 0x8013 => some (natLe 4 s.ev.missed.toNat)
  | 0x8020 => some (natLe 8 s.ev.snapTick.toNat)
  | 0x8021 => some (natLe 4 s.ev.snapSeq.toNat)
  | 0x8022 => some (natLe 1 (b2n (Tab.get falseD s.ev.view bank)))
  | 0x8101 => some (natLe 1 s.twin.role)
  | 0x8102 => some (natLe 1 s.twin.pair)
  | 0x8103 => some (natLe 8 s.twin.term.toNat)
  | 0x8104 => some (natLe 1 (b2n s.work.fuses.seat))
  | 0x8107 => some (natLe 1 (b2n s.twin.query))
  | 0x810C => some (natLe 2 s.twin.paired.toNat)
  | 0x810D => some (natLe 8 (Tab.get (bvD 64) s.twin.agreed (sub - 1)).toNat)
  | _ => none

/-- Objects whose value is computed; the others read their working value. -/
def computed (idx : Nat) : Bool :=
  [0x1002, 0x1003, 0x1005, 0x1006, 0x1104, 0x1105, 0x1106, 0x1200, 0x1201, 0x1202, 0x1203, 0x1205, 0x1206, 0x1207, 0x1209, 0x120A,
   0x120B, 0x120C, 0x120D, 0x1308, 0x1400, 0x1401, 0x1404, 0x1406].contains idx ||
  [0x2323, 0x2324, 0x2325, 0x2326, 0x2327, 0x2341, 0x2342, 0x234A, 0x234B, 0x3001, 0x3002, 0x3003, 0x3004, 0x3005, 0x3101, 0x3102,
   0x3103, 0x3104, 0x4000, 0x4001, 0x4003, 0x4010, 0x4012, 0x5002, 0x5010, 0x5012, 0x5013, 0x5014].contains idx ||
  [0x6000, 0x6001, 0x6002, 0x6010, 0x6011, 0x6021, 0x6022, 0x6023, 0x6024, 0x6110, 0x6111].contains idx ||
  decide (0x6100 ≤ idx ∧ idx ≤ 0x610B) ||
  [0x7000, 0x7001, 0x7003, 0x7004, 0x7011, 0x7012, 0x7021, 0x7022, 0x7023, 0x7030, 0x7032].contains idx ||
  [0x8000, 0x8003, 0x8004, 0x8009, 0x8011, 0x8012, 0x8013, 0x8020, 0x8021, 0x8022, 0x8101, 0x8102, 0x8103, 0x8104, 0x8107, 0x810C,
   0x810D].contains idx

/-- The bytes of an object for a selection; none when the record does not exist or the unit is absent. -/
def objBytes (s : State) (bank : Nat) (o : Obj) (sub sel : Nat) : Option (List Byte) :=
  match capability s.work.fuses o.idx with
  | some v => some (natLe o.ty.size v)
  | none =>
    if !computed o.idx then some (natLe o.ty.size (od s.work o.idx sub sel))
    else if o.idx < 0x2000 then objVal1 s o.idx sub
    else if o.idx < 0x4000 then objVal2 s o.idx sel
    else if o.idx < 0x6000 then objVal4 s bank o.idx sel
    else if o.idx < 0x7000 then objVal6 s o.idx sub sel
    else objVal7 s bank o.idx sub sel

/-! ## Counters (R384, R385) -/

/-- Objects that are counters. -/
def objCounterIdx : List Nat :=
  [0x1106, 0x2324, 0x3002, 0x3003, 0x3101, 0x3102, 0x3103, 0x3104, 0x4012, 0x6002, 0x6011, 0x6024, 0x6100, 0x6102, 0x6104, 0x6107, 0x6108, 0x6109,
   0x610A, 0x610B, 0x7022, 0x8013]

/-- Key of an object counter's shadow. -/
def objShadowKey (idx sub sel : Nat) : Nat := 2 ^ 48 + okey idx sub sel

def selUnits : OSel → Nat
  | .memch => 24
  | .upd => 8
  | .ten => 16
  | _ => 1

/-- Object counters that do not read zero. -/
def objCounters (s : State) : List (Nat × Nat) :=
  (objects.filter fun o => o.idx ∈ objCounterIdx).flatMap fun o =>
    ((List.range (o.subHi + 1 - o.sub)).map (o.sub + ·)).flatMap fun sub =>
      (List.range (selUnits o.sel)).filterMap fun sel =>
        match objBytes s 2 o sub sel with
        | some b => if leNat b = 0 then none else some (objShadowKey o.idx sub sel, leNat b)
        | none => none

/-- The bytes that a bank reads: a counter's shadow while its SNAPVIEW is set (R385). -/
def objShown (s : State) (bank : Nat) (o : Obj) (sub sel : Nat) : Option (List Byte) :=
  if o.idx ∈ objCounterIdx && Tab.get falseD s.ev.view bank then
    some (natLe o.ty.size (Tab.get zeroD s.ev.shadow (objShadowKey o.idx sub sel)))
  else objBytes s bank o sub sel

end Sys2Proof.Machine
end

