-- ==== Sys2Proof/Machine/Events.lean ====
section
/-! DEFINITION. The Event Table and snapshots (R381 to R385, R431, Tables 12.3 and 12.5). -/

namespace Sys2Proof.Machine

open Host

/-- An entry from its 32 bytes. -/
def parseEvent (v : BitVec 256) : EvEntry :=
  { tick := BitVec.ofNat 64 (fld v 0 64), action := fld v 64 8, ten := fld v 72 4, bcamp := bit v 79,
    arg0 := BitVec.ofNat 16 (fld v 80 16), arg1 := BitVec.ofNat 32 (fld v 96 32), period := BitVec.ofNat 64 (fld v 128 64),
    rept := BitVec.ofNat 32 (fld v 192 32) }

/-- A reserved field set, or a reserved ACTION (R382, R397). -/
def eventReserved (v : BitVec 256) : Bool :=
  fld v 76 3 ≠ 0 || fld v 224 32 ≠ 0 || decide (9 < fld v 64 8) ||
    (fld v 64 8 = 4 && (fld v 81 15 ≠ 0 || fld v 96 32 ≠ 0))

/-- A write of EventEntry by Basecamp or by another agent (R382). -/
def eventWrite (basecamp : Bool) (s : State) (k : Nat) (v : BitVec 256) : State × Nat :=
  let e := parseEvent v
  let old := Tab.get evD s.ev.table k
  let soon := fun (e : EvEntry) => e.action ≠ 0 && decide (e.tick.toNat ≤ s.work.now.toNat + 10)
  if soon e || soon old then (s, stTooLate)
  else if eventReserved v then (s, stOutOfRange)
  else if !basecamp && (e.bcamp || old.bcamp) then (s, stReadOnly)
  else ({ s with ev := { s.ev with table := Tab.set evD s.ev.table k e } }, stOk)

/-! ## Basecamp's own entries (R403, R487; log entry 34) -/

/-- The first multiple of an interval beyond a tick. -/
def nextMultiple (now iv : Nat) : Nat := (now / max 1 iv + 1) * max 1 iv

/-- Basecamp's entry for an action, at the next multiple of its interval. -/
def bcampEntry (s : State) (action iv : Nat) : EvEntry :=
  { EvEntry.free with tick := BitVec.ofNat 64 (nextMultiple s.work.now.toNat iv), action := action, bcamp := true,
                      period := BitVec.ofNat 64 iv }

/-- Entries 4095 and 4094 hold METER_CLOSE and EPOCH. -/
def armBasecamp (s : State) : State :=
  let t := Tab.set evD s.ev.table 4095 (bcampEntry s 2 s.misc.meterIv.toNat)
  { s with ev := { s.ev with table := Tab.set evD t 4094 (bcampEntry s 3 (od s.work 0x810A)) } }

/-- STEP (R378): where IT has gone back, Basecamp's entries fire at the multiples that lie ahead again. -/
def stepBack (s : State) : State :=
  let t := itStep s
  if (Tab.get evD s.ev.table 4095).bcamp && decide (t.work.now.toNat < s.work.now.toNat) then armBasecamp t else t

/-! ## Firing (R383, R431) -/

/-- Entry a fires before entry b: tick, then action, then number. -/
def firesBefore (a b : Nat × EvEntry) : Bool :=
  let x := a.2
  let y := b.2
  decide (x.tick.toNat < y.tick.toNat) ||
    (x.tick = y.tick && (decide (x.action < y.action) || (x.action = y.action && decide (a.1 < b.1))))

/-- Whether an entry is due, no other due entry fires before it, and no entry of the delay list has an earlier tick (R380). -/
def eventFirst (s : State) (k : Nat) : Bool :=
  let e := Tab.get evD s.ev.table k
  eventDue s e && !(s.ev.table.any fun o => o.1 ≠ k && eventDue s o.2 && firesBefore o (k, e)) &&
    !s.work.sched.delay.any fun t => decide (t.release.toNat < e.tick.toNat)

/-- A fired entry: freed, or moved to its first tick beyond ITNow, and the firings it missed (R383). -/
def reschedule (now : Nat) (e : EvEntry) : EvEntry × Nat :=
  let p := e.period.toNat
  if p = 0 then (EvEntry.free, 0)
  else
    let k := (now - e.tick.toNat) / p + 1
    if e.rept = 1 then (EvEntry.free, 0)
    else ({ e with tick := BitVec.ofNat 64 (e.tick.toNat + k * p), rept := if e.rept = 0 then 0 else e.rept - 1 }, k - 1)

/-- SNAPSHOT of a tick (R384): every counter into its shadow. -/
def snapshot (s : State) (tick : W64) : State :=
  let l := regCounters s ++ objCounters s
  { s with ev := { s.ev with shadow := l.foldl (fun t e => Tab.set zeroD t e.1 e.2) [], snapTick := tick,
                             snapSeq := s.ev.snapSeq + 1 } }

/-- The action of an entry (Table 12.5); false when its own rules refuse it. -/
def runAction (s : State) (e : EvEntry) : State × Bool :=
  let chans := maskList 24 (fld e.arg1 0 24)
  match e.action with
  | 1 => (snapshot s e.tick, true)
  | 2 => (meterClose s, true)
  | 3 => (epochAction s, true)
  | 4 => ({ s with work := sliceAction s.work e.ten e.arg0.toNat }, true)
  | 5 => cfgActivateAt s e.arg1.toNat e.tick
  | 6 =>
    let bad := chans.any fun c => (getCh s.work c).state = 4 || (getCh s.work c).state = 5 || (getCh s.work c).tgBusy
    ({ s with work := chans.foldl retrainOp s.work }, !bad)
  | 7 => ({ s with work := chans.foldl pprOp s.work }, true)
  | 8 => ({ s with work := agentPost s.work 2 e.arg0.toNat e.arg1.toNat }, true)
  | _ => ({ s with work := msix s.work (fld e.arg0 0 6) }, true)

/-- Basecamp moves its own entry to a changed interval. -/
def rearm (s : State) (k : Nat) (e : EvEntry) : State :=
  let put := fun (a iv : Nat) => { s with ev := { s.ev with table := Tab.set evD s.ev.table k (bcampEntry s a iv) } }
  if !e.bcamp then s
  else if e.action = 2 ∧ e.period ≠ s.misc.meterIv then put 2 s.misc.meterIv.toNat
  else if e.action = 3 ∧ e.period.toNat ≠ od s.work 0x810A then put 3 (od s.work 0x810A)
  else s

/-- An entry fires: it is consumed, its action runs, and a refusal is logged (EVENT_REFUSED). -/
def fireEntry (s : State) (k : Nat) : State :=
  let e := Tab.get evD s.ev.table k
  let (n, missed) := reschedule s.work.now.toNat e
  let s := { s with ev := { s.ev with table := Tab.set evD s.ev.table k n, missed := bump s.ev.missed missed } }
  let (s, ok) := runAction s e
  let s := if ok then s else { s with work := raise s.work srcEvent 0x73 0 (k + e.action * 4096) }
  rearm s k e

/-- EVENT_FIRE: the entry is the first that is due. -/
def execEventFire (k : Nat) (s : State) : Res :=
  onUnit "Event Table entry" 4096 k s fun s => if eventFirst s k then fireEntry s k else s

end Sys2Proof.Machine
end

