-- ==== Sys2Proof/Machine/Device.lean ====
section
/-! DEFINITION. Device states and DeviceCmd (R346, R367, R429, Tables 14.9 and 14.10). -/

namespace Sys2Proof.Machine

/-- SpreadFraction takes effect (R346): the channel addresses between the two fractions change space, and what they hold is
undefined, in the spare rows of those that are remapped too. -/
def spreadForce (w : Work) : Work :=
  let new := od w 0x2340
  let e0 := spreadEighths w.spread
  let e1 := spreadEighths new
  let lo := 0x2000000 + min e0 e1 * 0x100000000
  let hi := 0x2000000 + max e0 e1 * 0x100000000
  if lo = hi then { w with spread := new }
  else
    let rows := w.chs.flatMap fun m =>
      (m.2.remaps.filter fun e => e.2.valid && decide (lo ≤ 8192 * e.2.row) && decide (8192 * e.2.row < hi)).map fun e =>
        4096 * m.1 + e.2.spare
    let moved := fun (k : Nat) => (decide (lo ≤ k % 2 ^ 35) && decide (k % 2 ^ 35 < hi)) ||
      (decide (k % 2 ^ 35 < 0x2000000) && decide (k / 2 ^ 35 * 4096 + k % 2 ^ 35 / 8192 ∈ rows))
    { w with spread := new, lost := w.lost ++ [(lo, hi)], lostRows := w.lostRows ++ rows
             dram := Tab.drop moved w.dram
             errs := Tab.drop (fun k => moved (128 * k)) w.errs }

/-- WayPowerMode takes effect on every slice (R332). -/
def wpmForce (w : Work) : Work :=
  (List.range 4).foldl (fun w d => setSlice w d { getSlice w d with wpmS := od w 0x2331 = 1 }) w

/-- The channels come online (Table 14.9): each that is offline and trained and runs no traffic generator. -/
def channelsOnline (w : Work) : Work :=
  (List.range 24).foldl (fun w c =>
    let m := getCh w c
    if m.state = 4 && m.trained && !m.tgBusy then setCh w c { m with state := serviceState m } else w) w

/-- A new CacheWayMask, then a new CacheEnable, takes effect on every slice, in the order of R337. -/
def cacheForce (w : Work) : Work :=
  let new := (od w 0x2330, od w 0x2332)
  let w' := if new.2 = w.cacheCfg.2 then w
    else (List.range 4).foldl (fun w d => wayEnOp w d (BitVec.ofNat 16 new.2 &&& ~~~(getSlice w d).wayRet).toNat false) w
  let w' := if new.1 = w.cacheCfg.1 then w'
    else (List.range 4).foldl (fun w d => if new.1 = 1 then sliceEnableOp w d else sliceDisableOp w d false) w'
  { w' with cacheCfg := new }

/-- A new TravPortEnable takes effect: the lane groups of ports that it leaves out are switched off and lose their state (R30, R533), and
ports that it brings in begin to train (R454, R557). -/
def portsForce (w : Work) : Work :=
  let w := { w with portsOn := BitVec.ofNat 8 (od w 0x1301) }
  (List.range 8).foldl (fun w p =>
    if !portEnabled w p then setPort w p Port.reset
    else if (getPort w p).state = 0 then setPort w p { getPort w p with state := 1 }
    else w) w

/-- TO_READY from PreOp: the RWS values take effect. -/
def enterReady (w : Work) : Work :=
  { portsForce (cacheForce (channelsOnline (wpmForce (spreadForce w)))) with dstate := .ready }

/-- A tenancy 1 to 15 is ACTIVE. -/
def tenActive (w : Work) : Bool := (List.range 16).any fun t => t ≠ 0 && (getTen w t).state = 1

/-- A Summit is RUNNING. -/
def summitRunning (w : Work) : Bool := (List.range 16).any fun n => (getSummit w n).state = .running

/-- Every party reset (R70). -/
def resetParties (w : Work) : Work := (leaders w).foldl partyReset w

/-- DeviceCmd (Table 14.9); a command that the state does not allow answers WRONG_STATE. -/
def deviceCmd (s : State) (v : Nat) : State × Nat :=
  let w := s.work
  match v, w.dstate with
  | 1, .ready => if tenActive w then (s, stWrongState) else ({ s with work := { w with dstate := .preOp } }, stOk)
  | 1, .stopped =>
    if w.stopCause = 1 then ({ s with work := { resetParties w with dstate := .preOp, stopCause := 0 } }, stOk)
    else (s, stWrongState)
  | 2, .preOp => ({ s with work := enterReady w }, stOk)
  | 2, .run => if summitRunning w then (s, stWrongState) else ({ s with work := { w with dstate := .ready } }, stOk)
  | 3, .ready => ({ s with work := { w with dstate := .run } }, stOk)
  | 4, .preOp => ({ s with work := { stopAll w with dstate := .stopped, stopCause := 1 } }, stOk)
  | 4, .ready => ({ s with work := { stopAll w with dstate := .stopped, stopCause := 1 } }, stOk)
  | 4, .run => ({ s with work := { stopAll w with dstate := .stopped, stopCause := 1 } }, stOk)
  | 5, .stopped => (commandedReset s, stOk)
  | 5, .fenced => (commandedReset s, stOk)
  | _, _ => (s, stWrongState)

end Sys2Proof.Machine
end

