-- ==== Sys2Proof/Machine/Od.lean ====
section
/-! DEFINITION. Operations on objects (R408 to R413, R425 to R428, R481): rights, checks and effects of a write, and a read. -/

namespace Sys2Proof.Machine

open Host

/-! ## Rights and presence -/

/-- Tenancy-scope objects of the tenancy t (R428, R512). -/
def tenOwn (o : Obj) (t sub : Nat) : Bool :=
  o.tenScope && (if o.idx = 0x6010 ∨ o.idx = 0x6011 then decide (sub = t + 1) else true)

/-- What the doorbell mailbox of tenancy t may do (R428). -/
def doorbellMay (o : Obj) (t sub : Nat) (write : Bool) : Bool :=
  let sel := o.idx = 0x5011 || o.idx = 0x8010 || o.idx = 0x8022
  if write then sel
  else sel || o.idx = 0x4000 || o.idx = 0x5010 || tenOwn o t sub ||
    (decide (0x1000 ≤ o.idx) && decide (o.idx < 0x2000) && !(decide (0x1100 ≤ o.idx) && decide (o.idx < 0x1300)))

def agentMay (a : OdAgent) (o : Obj) (sub : Nat) (write : Bool) : Bool :=
  match a with
  | .doorbell t => doorbellMay o t sub write
  | _ => true

/-- Objects that recovery serves (R542): the identity objects, FwImage, FwCmd and FwStatus. -/
def recoveryServes (idx : Nat) : Bool :=
  [0x1000, 0x1001, 0x1002, 0x1006, 0x1007].contains idx || idx = 0x1402 || idx = 0x1403 || idx = 0x1404

/-- Whether Basecamp answers BUSY (R522, R542). -/
def odBusy (s : State) (a : OdAgent) (idx : Nat) : Bool :=
  a ≠ .basecamp && (s.fw.busy || s.fw.dead || (s.fw.recovery && !(a = .mailbox && recoveryServes idx)))

/-- The first checks of every operation, in order: Basecamp serves the agent (R522, R542), the object exists, the agent has a right to it. -/
def odFind (s : State) (a : OdAgent) (idx sub : Nat) (write : Bool) : Except Nat Obj :=
  if odBusy s a idx then .error stBusy
  else if 0xF000 ≤ idx then .error stDenied
  else
    match findObj idx sub with
    | none => .error stNoObject
    | some o => if !agentMay a o sub write then .error stDenied else .ok o

/-- Whether the part lacks the unit that an object belongs to: SpareRopeUsed on grade S, and the ITAsym entry of a port that the part does
not have. The twin objects and the other link entries are answered as if they were present (DESIGN CHOICE, log entry 138). -/
def odAbsent (s : State) (o : Obj) (sub : Nat) : Bool :=
  (o.idx = 0x6107 && !ropeFitted s.work) || (o.idx = 0x8008 && !portFitted s.work (sub - 1))

/-! ## Reads -/

/-- READ: the status and the bytes from an offset. -/
def readObj (s : State) (a : OdAgent) (idx sub off len : Nat) : Nat × List Byte :=
  match odFind s a idx sub false with
  | .error e => (e, [])
  | .ok o =>
    if o.acc = .wo then (stWriteOnly, [])
    else if odAbsent s o sub then (stNotPresent, [])
    else
      match objShown s a.bank o sub (objSel s a.bank o.sel) with
      | none => (stOutOfRange, [])
      | some bs => (stOk, (bs.drop off).take len)

/-! ## Checks of a write -/

def preOrStopped (w : Work) : Bool := w.dstate = .preOp || w.dstate = .stopped

/-- Access (R410): CONST and RO; TenSpurs of tenancy 0 (R389). -/
def readOnly (o : Obj) (sel : Nat) : Bool := o.acc = .const || o.acc = .ro || (o.idx = 0x4003 && sel = 0)

/-- The state that the access code asks for (R388, R410), and R481 for a standby's own agents. -/
def stateAllows (s : State) (a : OdAgent) (o : Obj) (sel : Nat) : Bool :=
  let quiet := preOrStopped s.work
  let access :=
    if o.acc = .rws || o.cond = .preStop then quiet
    else if o.cond = .free then (if sel = 0 then quiet else (getTen s.work sel).state = 0)
    else true
  let own := !(isStandby s.work && a ≠ .twin && decide (0x3000 ≤ o.idx) && decide (o.idx < 0x5000) && !inConfig o)
  access && own

/-- Lengths that a write may give (R411): FwImage is written in pieces (R543). -/
def lengthOk (o : Obj) (off n : Nat) : Bool := o.idx = 0x1402 || (off = 0 && n = o.ty.size)

/-- Bytes of the domain spaces (Table 11.2). -/
def inDomains (v : Nat) : Bool := decide (v < 0xC000000000)

/-- Ranges that are no plain interval (Tables 8.10, 9.14, 11.9, 13.1, 13.2, 15.10, 16.8; R10). -/
def rangeExtra (s : State) (o : Obj) (bank v : Nat) : Bool :=
  let w := s.work
  match o.idx with
  | 0x1302 => inDomains v && v % 0x80000 = 0
  | 0x2320 => inDomains v && v % 0x8000000 = 0
  | 0x2321 => inDomains v && v % 0x400000 = 0
  | 0x2344 => (List.range 4).all fun k => decide (1 ≤ bitsN v (8 * k) 8) && decide (bitsN v (8 * k) 8 ≤ 15)
  | 0x4004 => inDomains v && v % 0x200000 = 0
  | 0x4008 => decide (bitsN v 16 17 ≤ 65536)
  | 0x400E => decide (v < 2 ^ 48) && v % 4096 = 0
  | 0x5011 =>
    let rs := (getTen w (selObj s bank 0x5010)).records
    if rs = [] then v = 0 else rs.any fun r => r.1.toNat = v
  | 0x6020 => decide (s.log.oldest.toNat ≤ v) && decide (v < s.log.next.toNat)
  | 0x8100 => v = 0 || ropeFitted w
  | _ => true

/-- The object's range (R409, R412). -/
def rangeOk (s : State) (o : Obj) (bank v : Nat) : Bool :=
  match o.ty with
  | .blob _ => true
  | _ => decide (o.lo ≤ o.ty.value v) && decide (o.ty.value v ≤ o.hi) && rangeExtra s o bank v

/-- Reserved fields of object values that read as zero (R15). -/
def maskReserved (idx v : Nat) : Nat :=
  match idx with
  | 0x1306 => setBits (setBits v 37 3 0) 48 16 0
  | 0x4008 => bitsN v 0 35
  | _ => v

/-! ## Effects of a write -/

/-- LogCmd CLEAR: the records are gone, the numbering goes on. -/
def logClear (s : State) : State :=
  { s with log := { s.log with recs := [], oldest := s.log.next } }

/-- The witness of the pair, as an agent (R491): 1 the host, 2 the management port. -/
def isWitness (s : State) (a : OdAgent) : Bool :=
  (od s.work 0x8105 = 1 && a = .mailbox) || (od s.work 0x8105 = 2 && a = .mgmt)

/-- Objects whose write acts at once, given the bytes and the selection. -/
def writeActs (s : State) (a : OdAgent) (o : Obj) (sel off : Nat) (bs : List Byte) : State × Nat :=
  let v := leNat bs
  match o.idx with
  | 0x1004 => deviceCmd s v
  | 0x1103 => ({ s with misc := { s.misc with mgmtKey := bs, mgmtKeyId := s.misc.mgmtKeyId + 1, mgmtLastSeq := 0, mgmtResp := [] } }, stOk)
  | 0x1204 => cfgCmd s v
  | 0x1303 => ({ s with work := routeInval s.work }, stOk)
  | 0x1402 => fwWrite s off bs
  | 0x1403 => fwCmd s v
  | 0x4002 => tenCtrl s sel v
  | 0x4011 => ({ s with work := invalXlate s.work sel }, stOk)
  | 0x5001 => ({ s with misc := { s.misc with usageKey := bs, usageKeyId := s.misc.usageKeyId + 1 } }, stOk)
  | 0x6003 => (if v = 1 then clearValid s else clearFatal s, stOk)
  | 0x6025 => (logClear s, stOk)
  | 0x8001 => (setItSource s v, stOk)
  | 0x800A =>
    if s.work.dstate = .init || preOrStopped s.work then (stepBack s, stOk) else (s, stWrongState)
  | 0x800C => (setRefSeconds s (BitVec.ofNat 64 v), stOk)
  | 0x8011 => eventWrite (a = .basecamp) s sel (BitVec.ofNat 256 v)
  | 0x8022 => ({ s with ev := { s.ev with view := Tab.set falseD s.ev.view a.bank (v = 1) } }, stOk)
  | 0x8108 => if isWitness s a then witnessVerdict s v else (s, stDenied)
  | 0x8109 => if v = 3 && !isWitness s a then (s, stDenied) else twinCmd s v
  | _ => ({ s with work := setOd s.work o.idx 0 sel v }, stOk)

/-- Objects whose write is an act, not a stored value. -/
def actsOnWrite (idx : Nat) : Bool :=
  [0x1004, 0x1103, 0x1204, 0x1303, 0x1402, 0x1403, 0x4002, 0x4011, 0x5001, 0x6003, 0x6025, 0x8001, 0x800A, 0x800C, 0x8011, 0x8022,
   0x8108, 0x8109].contains idx

/-- WRITE (R410 to R413): every check in order, then the effect; a refused write changes nothing. -/
def writeObj (s : State) (a : OdAgent) (idx sub off : Nat) (bs : List Byte) : State × Nat :=
  match odFind s a idx sub true with
  | .error e => (s, e)
  | .ok o =>
    let sel := objSel s a.bank o.sel
    let v := leNat bs
    if readOnly o sel then (s, stReadOnly)
    else if odAbsent s o sub then (s, stNotPresent)
    else if !stateAllows s a o sel then (s, stWrongState)
    else if !lengthOk o off bs.length then (s, stLength)
    else if !rangeOk s o a.bank v then (s, stOutOfRange)
    else if actsOnWrite idx then writeActs s a o sel off bs
    else ({ s with work := setOd s.work idx sub sel (maskReserved idx v) }, stOk)

end Sys2Proof.Machine
end

