-- ==== Sys2Proof/Machine/Msg.lean ====
section
/-! DEFINITION. Messages of operations (R414 to R421, R481), the mailboxes (R422, R423, R451) and the management port. -/

namespace Sys2Proof.Machine

open Host

/-! ## Reading a message (R414, R415) -/

/-- One operation of a message. -/
structure MOp where
  idx   : Nat
  sub   : Nat
  write : Bool
  off   : Nat
  dlen  : Nat
  data  : List Byte
  deriving DecidableEq, Repr

/-- A checked message. -/
structure Msg where
  stop : Bool
  seq  : W64
  ops  : List MOp
  deriving DecidableEq, Repr

def at_ (bs : List Byte) (o n : Nat) : Nat := leNat ((bs.drop o).take n)

def pad4 (n : Nat) : Nat := (n + 3) / 4 * 4

/-- n operations that fill the bytes exactly; none when a header is wrong or the lengths disagree. -/
def parseOps : Nat → List Byte → Option (List MOp)
  | 0, bs => if bs = [] then some [] else none
  | n + 1, bs =>
    let op := at_ bs 3 1
    let dlen := at_ bs 8 2
    let body := if op = 2 then pad4 dlen else 0
    if bs.length < 12 + body || !(op = 1 || op = 2) || at_ bs 10 1 ≠ 0 || at_ bs 11 1 ≠ 0 then none
    else
      (parseOps n (bs.drop (12 + body))).map fun rest =>
        { idx := at_ bs 0 2, sub := at_ bs 2 1, write := op = 2, off := at_ bs 4 4, dlen := dlen
          data := if op = 2 then (bs.drop 12).take dlen else [] } :: rest

/-- Size of the largest response (R415). -/
def respSize (ops : List MOp) : Nat := 16 + (ops.map fun o => 12 + (if o.write then 0 else pad4 o.dlen)).sum

/-- The check of R415 on the bytes of a transport with a limit; exact asks that nothing follow the message. -/
def parseMsg (limit : Nat) (exact : Bool) (bs : List Byte) : Option Msg :=
  let flags := at_ bs 3 1
  let count := at_ bs 4 2
  let len := at_ bs 6 2
  if bs.length < 16 || at_ bs 0 2 ≠ 0x4F44 || at_ bs 2 1 ≠ 1 || decide (1 < flags) || count = 0 || decide (255 < count) ||
      len < 16 || decide (limit < len) || decide (bs.length < len) || (exact && bs.length ≠ len) then none
  else
    match parseOps count ((bs.take len).drop 16) with
    | none => none
    | some ops =>
      if limit < respSize ops then none
      else some { stop := flags = 1, seq := BitVec.ofNat 64 (at_ bs 8 8), ops := ops }

/-! ## Performing it (R416 to R418) -/

/-- One operation of a response. -/
def respOp (o : MOp) (status : Nat) (data : List Byte) : List Byte :=
  natLe 2 o.idx ++ natLe 1 o.sub ++ natLe 1 (if o.write then 2 else 1) ++ natLe 4 o.off ++ natLe 2 data.length ++
    natLe 1 status ++ natLe 1 0 ++ padTo (pad4 data.length) 0 data

/-- One operation performed. -/
def performOp (a : OdAgent) (o : MOp) (s : State) : State × Nat × List Byte :=
  if o.write then
    let (s, st) := writeObj s a o.idx o.sub o.off o.data
    (s, st, [])
  else
    let (st, bs) := readObj s a o.idx o.sub o.off o.dlen
    (s, st, bs)

/-- The operations in order. With STOP those after one that fails answer SKIPPED; BUSY, which every operation answers while Basecamp does
not serve the agent (R522), skips none. -/
def performOps (a : OdAgent) (stop : Bool) : List MOp → Bool → State → State × List Byte
  | [], _, s => (s, [])
  | o :: rest, failed, s =>
    if stop && failed && !(s.fw.busy || s.fw.dead) then
      let (t, bs) := performOps a stop rest failed s
      (t, respOp o stSkipped [] ++ bs)
    else
      let (t, st, data) := performOp a o s
      let (u, bs) := performOps a stop rest (failed || st ≠ 0) t
      (u, respOp o st data ++ bs)

/-- The header of a response over the bytes of its operations. -/
def respMsg (m : Msg) (body : List Byte) : List Byte :=
  natLe 2 0x4F44 ++ natLe 1 1 ++ natLe 1 (2 + b2n m.stop) ++ natLe 2 m.ops.length ++ natLe 2 (16 + body.length) ++
    natLe 8 m.seq.toNat ++ body

/-- An operation whose message a Duplex primary forwards (R481). -/
def forwardable (o : MOp) : Bool :=
  o.write && decide (0x3000 ≤ o.idx) && decide (o.idx < 0x5000) &&
    (match findObj o.idx o.sub with
     | some b => !inConfig b
     | none => false)

/-- The fragments of a message, three blocks each (R481, Table 16.4). -/
def sendFragments (total : Nat) : List (List Byte) → Nat → Work → Work
  | [], _, w => w
  | c :: rest, off, w =>
    let last := decide (total ≤ off + c.length)
    sendFragments total rest (off + c.length) (sendFwd w 0 4 (off + b2n last * 2 ^ 16) 0 c id)

def forwardMsg (s : State) (a : OdAgent) (m : Msg) (bs : List Byte) : State :=
  let doorbell := match a with
    | .doorbell _ => true
    | _ => false
  if s.work.fwding && !doorbell && basecampUp s && m.ops.any forwardable then
    { s with work := sendFragments bs.length (chunks 384 bs) 0 s.work }
  else s

/-- A checked message, whose bytes are bs, is performed: the response. What was left for its end then takes effect. -/
def performMsg (s : State) (a : OdAgent) (m : Msg) (bs : List Byte) : State × List Byte :=
  let s := forwardMsg s a m bs
  let (t, body) := performOps a m.stop m.ops false s
  (finishAct s t, respMsg m body)

/-- A message of one write. -/
def oneWrite (idx sub : Nat) (data : List Byte) : List Byte :=
  natLe 2 0x4F44 ++ natLe 1 1 ++ natLe 1 0 ++ natLe 2 1 ++ natLe 2 (28 + pad4 data.length) ++ natLe 8 0 ++
    natLe 2 idx ++ natLe 1 sub ++ natLe 1 2 ++ natLe 4 0 ++ natLe 2 data.length ++ natLe 2 0 ++ padTo (pad4 data.length) 0 data

/-- The doorbell pages, the mailboxes and BAR2 cannot be reached while PERST# is asserted (R538), and nothing in the device while it is held
in reset for want of SYSCLK (R535). -/
def hostReach (s : State) : Bool := !s.pwr.perst && s.it.sysclk

/-- Whether an agent's message reaches Basecamp: those of the host and of the doorbell pages come through its mailboxes (R445, R538). -/
def agentReach (s : State) (a : OdAgent) : Bool :=
  match a with
  | .mailbox => hostReach s
  | .doorbell t => hostReach s && bit s.host.dbEnable t
  | _ => s.it.sysclk

/-- An object written by a message of one operation. -/
def odWrite (s : State) (a : OdAgent) (idx sub : Nat) (data : List Byte) : State :=
  let o : MOp := { idx := idx, sub := sub, write := true, off := 0, dlen := data.length, data := data }
  let s := forwardMsg s a { stop := false, seq := 0, ops := [o] } (oneWrite idx sub data)
  if agentReach s a then finishAct s (writeObj s a idx sub 0 data).1 else s

/-! ## Mailboxes -/

/-- Mailbox 0 is that of BAR0; mailbox t + 1 is on the doorbell page of tenancy t. -/
def boxAgent (k : Nat) : OdAgent := if k = 0 then .mailbox else .doorbell (k - 1)
def boxLimit (k : Nat) : Nat := if k = 0 then 3840 else 768

def getBox (s : State) (k : Nat) : Mailbox := Tab.get boxD s.host.boxes k
def setBox (s : State) (k : Nat) (b : Mailbox) : State := { s with host := { s.host with boxes := Tab.set boxD s.host.boxes k b } }

/-- Whether a mailbox accepts writes: a doorbell page only while its DB_ENABLE bit is set (R445). -/
def boxOpen (s : State) (k : Nat) : Bool := hostReach s && (k = 0 || bit s.host.dbEnable (k - 1))

/-- DONE is set, with MALFORMED when bad, and the interrupt that MB_IRQ names is raised (R423). -/
def boxDone (s : State) (k : Nat) (bad : Bool) : State :=
  let b := getBox s k
  let s := setBox s k { b with busy := false, done := true, malformed := b.malformed || bad }
  if bit b.irq 8 then { s with work := msix s.work (fld b.irq 0 6) } else s

/-- GO (R423). With Basecamp held in reset no message is performed, and BUSY stands (R522). -/
def boxGo (s : State) (k : Nat) : State :=
  let b := getBox s k
  if !boxOpen s k then s
  else if b.busy then setBox s k { b with overrun := true }
  else if s.fw.dead then setBox s k { b with busy := true }
  else
    let bs := Mem.read b.data 0x100 (boxLimit k)
    match parseMsg (boxLimit k) false bs with
    | none => boxDone s k true
    | some m =>
      let (t, resp) := performMsg s (boxAgent k) m (bs.take (at_ bs 6 2))
      let b := getBox t k
      boxDone (setBox t k { b with data := Mem.write b.data 0x100 resp }) k false

/-- The mailbox of a bank's agents; Basecamp has none. -/
def bankBox : Bank → Option Nat
  | .host => some 0
  | .hostEp => some 0
  | .od => some 0
  | .doorbell t => if t < 16 then some (t + 1) else none
  | .basecamp => none

/-- MB_GO. -/
def execMbGo (bank : Bank) (s : State) : Res :=
  match bankBox bank with
  | some k => .next (settleS (.mbGo bank) s (boxGo s k))
  | none => .next s

/-! ## The management port (R419 to R421) -/

/-- Sends a response from the port that received the request to where it came from, with a tag under the key of the request. -/
def mgmtSend (key : List Byte) (s : State) (d : Datagram) (resp : List Byte) : State :=
  { s with work := emit s.work (.datagram d.dport d.addr d.port resp (hmac256 key resp)) }

def authFail (s : State) : State := { s with misc := { s.misc with mgmtAuthFail := bump s.misc.mgmtAuthFail 1 } }

/-- An authentic message, by its SEQ (R421). While Basecamp restarts every operation answers BUSY (R522), and SEQ is not taken.
With no response stored, none is sent again. -/
def mgmtSeq (s : State) (d : Datagram) (m : Msg) : State :=
  let key := s.misc.mgmtKey
  let last := s.misc.mgmtLastSeq.toNat
  let all := fun (st : Nat) => respMsg m (m.ops.flatMap fun o => respOp o st [])
  if s.fw.busy then mgmtSend key s d (all stBusy)
  else if m.seq.toNat = last then (if s.misc.mgmtResp = [] then s else mgmtSend key s d s.misc.mgmtResp)
  else if m.seq.toNat < last then mgmtSend key s d (all stSkipped)
  else
    let id := s.misc.mgmtKeyId
    let s := { s with misc := { s.misc with mgmtLastSeq := m.seq } }
    let (t, resp) := performMsg s .mgmt m d.msg
    let t := if t.misc.mgmtKeyId = id then { t with misc := { t.misc with mgmtResp := resp } } else t
    mgmtSend key t d resp

/-- Whether the port is served: enabled, with SYSCLK, and Basecamp not held in reset nor in recovery (R522, R535, R542). -/
def mgmtServed (s : State) : Bool := od s.work 0x1100 = 1 && !s.fw.dead && !s.fw.recovery && s.it.sysclk

/-- Messages of the port that wait, 16 at most (R420). -/
def mgmtHeld (w : Work) : Nat := (w.waiting.filter fun x => match x.cmd with | .mgmtDatagram _ => true | _ => false).length

/-- MGMT_DATAGRAM, to the UDP port MgmtUdpPort. With 16 messages waiting a further one is discarded without reply (R420). -/
def execMgmtDatagram (d : Datagram) (s : State) : Res :=
  if !mgmtServed s || d.dport.toNat ≠ od s.work 0x1102 then .next s
  else if s.misc.mgmtKeyId = 0 || d.tag ≠ hmac256 s.misc.mgmtKey d.msg then .next (authFail s)
  else
    match parseMsg 1200 true d.msg with
    | none => .next (authFail s)
    | some m => .next (if !s.work.again && decide (16 ≤ mgmtHeld s.work) then s else settleS (.mgmtDatagram d) s (mgmtSeq s d m))

/-! ## Forwarded messages (R481) -/

/-- A FWD frame reaches the standby: its payload bytes are counted (RP_FWDBYTES), then it is applied. -/
def onFwd (cmd : Instr) (kind : Nat) (f : Frame) (s : State) (g : Frame → State → State) : Res :=
  onTwin cmd 12 kind f s fun f s =>
    if s.twin.role ≠ 2 then s
    else
      let p := getPort s.work 8
      g f { s with work := setPort s.work 8 { p with fwdBytes := bump p.fwdBytes (128 * f.len) } }


/-- FWD_OD_FRAGMENT: the standby performs the whole message on its last fragment and discards the response. -/
def fwdFragment (s : State) (f : Frame) : State :=
  let off := fld f.addr 0 16
  let old := if off = 0 then [] else s.twin.odFrag
  let bs := padTo off 0 (old.take off) ++ f.payload
  if !bit f.addr 16 then { s with twin := { s.twin with odFrag := bs } }
  else
    let s := { s with twin := { s.twin with odFrag := [] } }
    match parseMsg 3840 false bs with
    | none => s
    | some m => (performMsg s .twin m bs).1

def execFwdOdFragment (f : Frame) (s : State) : Res := onFwd (.fwdOdFragment f) 4 f s fun f s => fwdFragment s f

/-! ## Rows of the table that are object writes -/

/-- The agent of a bank: the host reaches objects through the BAR0 mailbox. -/
def bankAgent : Bank → OdAgent
  | .host => .mailbox
  | .hostEp => .mailbox
  | .od => .mgmt
  | .basecamp => .basecamp
  | .doorbell t => .doorbell (t % 16)

def execStep (bank : Bank) (s : State) : Res := .next (settleS (.step bank) s (odWrite s (bankAgent bank) 0x800A 0 [1]))

def execItrefsecondsWrite (bank : Bank) (v : W64) (s : State) : Res := .next (settleS (.itrefsecondsWrite bank v) s (odWrite s (bankAgent bank) 0x800C 0 (natLe 8 v.toNat)))

/-- ITSource: a value of more than one byte has no length the type allows. -/
def execItsourceWrite (bank : Bank) (v : Nat) (s : State) : Res :=
  .next (settleS (.itsourceWrite bank v) s (if v < 256 then odWrite s (bankAgent bank) 0x8001 0 (natLe 1 v) else s))

def execEventEntryWrite (bank : Bank) (v : BitVec 256) (s : State) : Res :=
  .next (settleS (.eventEntryWrite bank v) s (odWrite s (bankAgent bank) 0x8011 0 (natLe 32 v.toNat)))

def execTenancyEnable (bank : Bank) (s : State) : Res := .next (settleS (.tenancyEnable bank) s (odWrite s (bankAgent bank) 0x4002 0 [1]))
def execTenancyDisable (bank : Bank) (s : State) : Res := .next (settleS (.tenancyDisable bank) s (odWrite s (bankAgent bank) 0x4002 0 [2]))
def execTenancyReset (bank : Bank) (s : State) : Res := .next (settleS (.tenancyReset bank) s (odWrite s (bankAgent bank) 0x4002 0 [3]))
def execXlateInval (bank : Bank) (s : State) : Res := .next (settleS (.xlateInval bank) s (odWrite s (bankAgent bank) 0x4011 0 [1]))
def execFaultClearValid (bank : Bank) (s : State) : Res :=
  .next (settleS (.faultClearValid bank) s (if bank = .host ∨ bank = .hostEp then clearValid s else odWrite s (bankAgent bank) 0x6003 0 [1]))
def execFaultClearFatal (bank : Bank) (s : State) : Res :=
  .next (settleS (.faultClearFatal bank) s (if bank = .host ∨ bank = .hostEp then clearFatal s else odWrite s (bankAgent bank) 0x6003 0 [2]))

end Sys2Proof.Machine
end

