-- ==== Sys2Proof/Machine/Regs.lean ====
section
/-! DEFINITION. Writes to the registers of BAR0 (R15, R39, R71 to R73, R280, R307, R424 to R427, R443, R445, R451, R452, R567, and the
W1C and RW registers of every window). -/

namespace Sys2Proof.Machine

open Host

/-! ## Banks -/

/-- Bank numbers (R427). -/
def bankNo : Bank → Nat
  | .host => 0 | .hostEp => 0 | .basecamp => 1 | .od => 2 | .doorbell t => 3 + t

def bankOf : Nat → Bank
  | 0 => .host | 1 => .basecamp | 2 => .od | k + 3 => .doorbell k

/-- The unit a bank has selected for a window. The OD bank's select objects stand for its registers. -/
def winUnit (s : State) (b sel : Nat) : Option Nat :=
  if b = 2 ∧ sel = 1 then selected s.work 1 (selObj s 2 0x3000)
  else if b = 2 ∧ sel = 4 then selected s.work 4 (selObj s 2 0x4000)
  else selUnit s b sel

/-! ## W1C (R410) -/

/-- A flag kept unless its bit is written as 1. -/
def keepBit (old : Bool) (v i : Nat) : Bool := old && bitsN v i 1 = 0

/-- A field whose bits written as 1 are cleared. -/
def w1c {n : Nat} (old : BitVec n) (v : Nat) : BitVec n := old &&& ~~~(BitVec.ofNat n v)

/-! ## Window registers of 32 bits -/

/-- Crag window (Tables 2.13, 3.6, 4.7, 5.10, 6.6, 9.11). -/
def cragWrite (w : Work) (c off v : Nat) : Work :=
  let x := getCrag w c
  let put := fun (x : Crag) => setCrag w c x
  match off with
  | 0x004 => put { x with refused := keepBit x.refused v 8 }
  | 0x010 => if v % 2 = 1 then cragResetOp w c else w
  | 0x100 => put { x with region := { x.region with qdl := w1c x.region.qdl (v % 2) } }
  | 0x104 => put { x with region := { x.region with lateTol := keepBit x.region.lateTol v 2, lateLimit := keepBit x.region.lateLimit v 3 } }
  | 0x110 => put { x with ex := { x.ex with fflags := w1c x.ex.fflags v } }
  | 0x120 => put { x with ex := { x.ex with gtail := keepBit x.ex.gtail v 3 } }
  | 0x144 => put { x with ex := { x.ex with vflags := w1c x.ex.vflags v } }
  | 0x188 => put { x with ex := { x.ex with vrsel := BitVec.ofNat 5 v } }
  | 0x1E0 => put { x with ac := { x.ac with bAbandoned := keepBit x.ac.bAbandoned v 3, bTimeout := keepBit x.ac.bTimeout v 4,
                                            bRange := keepBit x.ac.bRange v 5 } }
  | 0x1E8 => put { x with ac := { x.ac with tSlotBusy := keepBit x.ac.tSlotBusy v 6, tDoneEmpty := keepBit x.ac.tDoneEmpty v 7,
                                            tReturned := keepBit x.ac.tReturned v 8 } }
  | _ => w

/-- Memory channel window (Tables 11.8 and 11.10 to 11.13). -/
def mcWrite (w : Work) (c off v : Nat) : Work :=
  let m := getCh w c
  let put := fun (m : MemCh) => setCh w c m
  match off with
  | 0x004 => put { m with emerg := keepBit m.emerg v 4, trainFail := keepBit m.trainFail v 5, refused := keepBit m.refused v 6 }
  | 0x008 => mcCmd w c v
  | 0x020 => put { m with rmIdx := BitVec.ofNat 12 v }
  | 0x040 => if v % 2 = 1 then tgGoOp w c (BitVec.ofNat 32 v) else put { m with tgCtrl := BitVec.ofNat 32 v &&& 0x1FFFF }
  | 0x044 => put { m with tgDone := keepBit m.tgDone v 1, tgFail := keepBit m.tgFail v 2, tgRefused := keepBit m.tgRefused v 3 }
  | 0x058 => put { m with tgSeed := BitVec.ofNat 32 v }
  | 0x05C => put { m with tgStride := BitVec.ofNat 28 v }
  | _ => w

/-- CD_CTRL (R331): ENABLE set or cleared, with FORCE. -/
def cdCtrl (w : Work) (d v : Nat) : Work :=
  if v % 2 = 1 then sliceEnableOp w d else sliceDisableOp w d (bitsN v 1 1 = 1)

/-- Cache-die window (Tables 10.4 and 10.6 to 10.9), for a bank. -/
def cdWrite (w : Work) (d bank off v : Nat) : Work :=
  let x := getSlice w d
  let put := fun (x : Slice) => setSlice w d x
  match off with
  | 0x004 => put { x with dirtyRef := keepBit x.dirtyRef v 2, refused := keepBit x.refused v 3, lost := keepBit x.lost v 4 }
  | 0x008 => cdCtrl w d v
  | 0x00C => wayEnOp w d v false
  | 0x010 => wayPwrOp w d v
  | 0x014 => put { x with noAlloc := BitVec.ofNat 16 v }
  | 0x028 => put { x with cmoLen := Tab.set (bvD 32) x.cmoLen bank (BitVec.ofNat 32 v) }
  | 0x02C => cmoCmd w d (v % 8) (bitsN v 3 1 = 1) (bitsN v 4 4) bank
  | 0x030 => put { x with cmoDone := keepBit x.cmoDone v 1, cmoRefused := keepBit x.cmoRefused v 2 }
  | _ => w

/-- Traverse, Rope and PCIe windows: DOWN_EVT (Tables 15.12 and 16.7). -/
def portWrite (s : State) (p off v : Nat) : State :=
  if off ≠ 0x004 then s
  else if p = 9 then { s with host := { s.host with downEvt := keepBit s.host.downEvt v 10 } }
  else
    let x := getPort s.work p
    { s with work := setPort s.work p { x with downEvt := keepBit x.downEvt v (if p = 8 then 6 else 10) } }

/-- BELAY_STAT (Table 9.9). -/
def belayWrite (w : Work) (b off v : Nat) : Work :=
  let x := getBelay w b
  if off = 0x004 then
    setBelay w b { x with sat := keepBit x.sat v 10, refused := keepBit x.refused v 11, abandoned := keepBit x.abandoned v 12 }
  else w

/-- Summit window (R73); up says whether Basecamp is at work (R518). -/
def summitWrite (up : Bool) (w : Work) (n off v : Nat) : Work :=
  match off with
  | 0x000 => summitCtrl up w n v
  | 0x004 => summitW1c w n v
  | 0x008 => partyWrite w n (BitVec.ofNat 32 v)
  | 0x020 => summitCfg w n off v
  | 0x024 => summitCfg w n off v
  | 0x028 => summitCfg w n off v
  | _ => w

/-- A 32-bit register of the window of a select, for the unit. -/
def winWrite (s : State) (bank sel u off v : Nat) : State :=
  let onW := fun (w : Work) => { s with work := w }
  match sel with
  | 0 => onW (cragWrite s.work u off v)
  | 1 => onW (mcWrite s.work u off v)
  | 2 => onW (cdWrite s.work u bank off v)
  | 3 => portWrite s u off v
  | 4 => s
  | 5 => onW (belayWrite s.work u off v)
  | _ => onW (summitWrite (basecampUp s) s.work u off v)

/-! ## Select registers (R424, R427) -/

/-- Bits of a select register that Table 14.7 lists. -/
def selMask : Nat → Nat
  | 0 => 0x81FF | 1 => 0x1F | 2 => 0x3 | 3 => 0xF | 4 => 0xF | 5 => 0xFFFF | _ => 0xF

/-- A write of select register k in a bank. -/
def selWrite (s : State) (bank k v : Nat) : State :=
  let i := 32 * bank + k
  { s with host := { s.host with
      sel := Tab.set u32D s.host.sel i (BitVec.ofNat 32 (v &&& selMask k))
      selWr := Tab.set (bvD 16) s.host.selWr i (Tab.get (bvD 16) s.host.selWr i + 1) } }

/-! ## Mailboxes, global page, collector -/

/-- Mailbox registers (Table 14.6); k is the mailbox. -/
def boxWrite (s : State) (k off v : Nat) : State :=
  let b := getBox s k
  if !boxOpen s k then s
  else
    match off with
    | 0x000 => if v % 2 = 1 then boxGo s k else s
    | 0x004 => setBox s k { b with done := keepBit b.done v 1, malformed := keepBit b.malformed v 2, overrun := keepBit b.overrun v 3 }
    | 0x008 => setBox s k { b with irq := BitVec.ofNat 32 v &&& 0x13F }
    | 0x048 =>
      if k = 0 then s else setBox s k { b with dbRefused := keepBit b.dbRefused v 0, dbDiscarded := keepBit b.dbDiscarded v 1 }
    | _ =>
      if 0x100 ≤ off ∧ off < 0x100 + boxLimit k ∧ off % 4 = 0 then
        if b.busy then setBox s k { b with overrun := true }
        else setBox s k { b with data := Mem.write b.data off (natLe 4 v) }
      else s

/-- Global page (Tables 12.6 and 15.3). -/
def globalWrite (s : State) (bank off v : Nat) : State :=
  match off with
  | 0x054 => { s with ev := { s.ev with view := Tab.set falseD s.ev.view bank (v % 2 = 1) } }
  | 0x088 => { s with work := { s.work with epRx := keepBit s.work.epRx v 0, cplErr := keepBit s.work.cplErr v 1,
                                            priFail := keepBit s.work.priFail v 2, fenceSeen := keepBit s.work.fenceSeen v 3 } }
  | 0x090 => { s with host := { s.host with dbEnable := BitVec.ofNat 16 v } }
  | _ => s

/-- Collector (Tables 17.4 and 17.5). -/
def collectorWrite (s : State) (off v : Nat) : State :=
  match off with
  | 0x000 =>
    let s := if bitsN v 0 1 = 1 then clearValid s else s
    if bitsN v 2 1 = 1 then clearFatal s else s
  | 0x040 => { s with fc := { s.fc with ceIrq := v % 2 = 1 } }
  | _ => s

/-- A write of a 32-bit register of BAR0. Windows of absent units, read-only and reserved offsets ignore it (R15, R425). -/
def write32 (s : State) (bank off v : Nat) : State :=
  if off < 0x1000 then globalWrite s bank off v
  else if off < 0x2000 then collectorWrite s (off - 0x1000) v
  else if off < 0x3000 then boxWrite s 0 (off - 0x2000) v
  else if off < 0x4000 then
    match idxIn off 0x3000 8 7 with
    | some k => selWrite s bank k v
    | none => s
  else if off < 0xB000 then
    let sel := off / 0x1000 - 4
    match winUnit s bank sel with
    | some u => winWrite s bank sel u (off % 0x1000) v
    | none => s
  else if off < 0xC000 then s
  else if off < 0x10000 then boxWrite s ((off - 0xC000) / 0x400 + 1) (off % 0x400) v
  else s

/-! ## Registers of 64 bits (R567) -/

/-- How a 64-bit register takes a write. -/
inductive Wide where
  | rw | w1c | act
  deriving DecidableEq, Repr

/-- The writable 64-bit registers. -/
def wideKind (off : Nat) : Option Wide :=
  if off = 0x080 then some .rw
  else if 0xC000 ≤ off ∧ off < 0x10000 then (if off % 0x400 = 0x40 then some .act else none)
  else
    match off / 0x1000, off % 0x1000 with
    | 0x4, o => if 0x148 ≤ o ∧ o < 0x180 ∧ o % 8 = 0 then some .w1c else none
    | 0x5, 0x048 => some .rw
    | 0x5, 0x050 => some .rw
    | 0x6, 0x020 => some .rw
    | 0x9, 0x010 => some .act
    | 0x9, 0x018 => some .act
    | 0xA, 0x010 => some .rw
    | 0xA, 0x018 => some .rw
    | _, _ => none

/-- BELAY_SET (R307): refused while the Belay has waiters. -/
def belaySetOp (w : Work) (b v : Nat) : Work :=
  let x := getBelay w b
  if x.waiters ≠ [] then setBelay w b { x with refused := true } else setBelay w b { x with value := BitVec.ofNat 64 v }

/-- BELAY_POST (R280): the host's waits for its earlier BAR2 writes. -/
def belayPostReg (w : Work) (bank b v : Nat) : Work :=
  if bank = 0 then hostLater w (.post b (v % 2 ^ 32)) else agentPost w (if bank = 1 then 2 else 1) b (v % 2 ^ 32)

/-- DB_RING on the page of tenancy t (R451, R452). -/
def ringOp (s : State) (t v : Nat) : State :=
  let b := getBox s (t + 1)
  let belay := bitsN v 0 16
  let inc := bitsN v 16 32
  if !hostReach s then s
  else if s.work.dstate ≠ .run || !bit s.host.dbEnable t || (getTen s.work t).state ≠ 1 then setBox s (t + 1) { b with dbDiscarded := true }
  else if !mayBelay s.work t 33 belay then
    let s := setBox s (t + 1) { b with dbRefused := true }
    { s with work := raise s.work srcPcie 0x21 t (belay + devId s.work * 2 ^ 16) }
  else
    let s := setBox s (t + 1) { b with dbRings := b.dbRings + 1 }
    { s with work := hostLater s.work (.post belay inc) }

/-- A whole value written to a 64-bit register. -/
def write64 (s : State) (bank off v : Nat) : State :=
  if off = 0x080 then { s with host := { s.host with bar2Base := BitVec.ofNat 64 (setBits (bitsN v 0 48) 0 30 0) } }
  else if 0xC000 ≤ off then ringOp s ((off - 0xC000) / 0x400) v
  else
    match winUnit s bank (off / 0x1000 - 4) with
    | none => s
    | some u =>
      let w := s.work
      match off / 0x1000, off % 0x1000 with
      | 0x4, o =>
        let x := getCrag w u
        let k := (o - 0x148) / 8
        let t := Tab.set (bvD 64) x.ex.vlanef k (w1c (Tab.get (bvD 64) x.ex.vlanef k) v)
        { s with work := setCrag w u { x with ex := { x.ex with vlanef := t } } }
      | 0x5, 0x048 => { s with work := setCh w u { getCh w u with tgBase := BitVec.ofNat 35 (v / 128 * 128) } }
      | 0x5, 0x050 => { s with work := setCh w u { getCh w u with tgLen := BitVec.ofNat 28 v } }
      | 0x6, 0x020 =>
        let x := getSlice w u
        { s with work := setSlice w u { x with cmoAddr := Tab.set (bvD 48) x.cmoAddr bank (BitVec.ofNat 48 (v / 512 * 512)) } }
      | 0x9, 0x010 => { s with work := belayPostReg w bank u v }
      | 0x9, 0x018 => { s with work := belaySetOp w u v }
      | 0xA, o => { s with work := summitCfg w u o v }
      | _, _ => s

/-- The value that a 64-bit RW register holds. -/
def wideOld (s : State) (bank off : Nat) : Nat := ((bar0Reg s bank off).map (·.val)).getD 0

/-- Place of a register's held low half: the bank's, or the doorbell page's own, which its offset names (R567). -/
def heldKey (bank off : Nat) : Nat := if 0xC000 ≤ off then off else bank * 65536 + off

def getHeld (s : State) (bank off : Nat) : Nat := (Tab.get u32D s.host.held (heldKey bank off)).toNat
def setHeld (s : State) (bank off v : Nat) : State :=
  { s with host := { s.host with held := Tab.set u32D s.host.held (heldKey bank off) (BitVec.ofNat 32 v) } }

/-- The low half of a 64-bit register. -/
def writeLow (s : State) (bank off v : Nat) : State :=
  match wideKind off with
  | some .rw => write64 s bank off (wideOld s bank off / 2 ^ 32 * 2 ^ 32 + v)
  | some .w1c => write64 s bank off v
  | some .act => setHeld s bank off v
  | none => s

/-- The high half of a 64-bit register whose offset is off. -/
def writeHigh (s : State) (bank off v : Nat) : State :=
  match wideKind off with
  | some .rw => write64 s bank off (wideOld s bank off % 2 ^ 32 + v * 2 ^ 32)
  | some .w1c => write64 s bank off (v * 2 ^ 32)
  | some .act => write64 (setHeld s bank off 0) bank off (getHeld s bank off + v * 2 ^ 32)
  | none => s

/-- A 4 B write. -/
def put4 (s : State) (bank off v : Nat) : State :=
  if (wideKind off).isSome then writeLow s bank off v
  else if off % 8 = 4 ∧ (wideKind (off - 4)).isSome then writeHigh s bank (off - 4) v
  else write32 s bank off v

/-- An 8 B write of CD_CTRL and CD_WAYEN: FORCE accompanies the way write (R330). -/
def cdPair (s : State) (bank v : Nat) : State :=
  match winUnit s bank 2 with
  | none => s
  | some d => { s with work := wayEnOp (cdCtrl s.work d v) d (v / 2 ^ 32 % 2 ^ 32) (bitsN v 1 1 = 1) }

/-- An 8 B write: a 64-bit register whole, or two 32-bit registers, the lower first. -/
def put8 (s : State) (bank off v : Nat) : State :=
  if (wideKind off).isSome then write64 (setHeld s bank off 0) bank off v
  else if off = 0x6008 then cdPair s bank v
  else put4 (put4 s bank off (v % 2 ^ 32)) bank (off + 4) (v / 2 ^ 32 % 2 ^ 32)

/-- A write of BAR4 by the host (Table 15.2): bytes of the MSI-X table; the pending bits take no write. What a bit of an entry means the
spec does not say (log entry 96). -/
def bar4Put (s : State) (bank o width v : Nat) : State :=
  if bank = 0 ∧ (width = 4 ∨ width = 8) ∧ o % width = 0 ∧ o + width ≤ 0x400 then
    { s with host := { s.host with msixTab := Mem.write s.host.msixTab o (natLe width v) } }
  else s

/-- A write that BAR0 accepts (R443): naturally aligned, 4 or 8 bytes. Offsets from 0x10000 are BAR4's. -/
def regPut (s : State) (bank off width v : Nat) : State :=
  if 0x10000 ≤ off then bar4Put s bank (off - 0x10000) width v
  else if width = 4 ∧ off % 4 = 0 ∧ off < 0x10000 then put4 s bank off (v % 2 ^ 32)
  else if width = 8 ∧ off % 8 = 0 ∧ off < 0x10000 then put8 s bank off v
  else s

/-! ## What a Duplex pair does with the host's writes (R479, R480) -/

/-- BAR0 0x3000 to 0xAFFF and DB_RING. -/
def forwarded (off : Nat) : Bool :=
  (decide (0x3000 ≤ off) && decide (off < 0xB000)) ||
    (decide (0xC000 ≤ off) && decide (off < 0x10000) && decide (off % 0x400 / 8 = 8))

/-- A received TLP with EP set (R448). It writes no device physical address here, so the ADDR of its message is a free value (log entry
4). -/
def poisonRx (s : State) : State :=
  let (v, w) := freeVal s.work
  { s with work := raise { w with epRx := true } srcPcie 0x58 0 (fld v 0 48) }

/-- A write by an agent of a bank: a primary forwards its host's before it applies it, a standby discards its own host's. In
D3hot the host's is not decoded (R442). -/
def regWrite (s : State) (bank off width v : Nat) : State :=
  let ok := (width = 4 || width = 8) && off % width = 0
  if bank = 0 && s.host.d3hot then s
  else if bank = 0 && forwarded off && isStandby s.work then { s with work := suppress1 s.work }
  else
    let t := if bank = 0 && forwarded off && s.work.fwding && ok then
        { s with work := sendFwd s.work 0 1 off 0 (natLe 8 (if width = 4 then v % 2 ^ 32 else v) ++ natLe 1 width) id }
      else s
    settleS (.registerWrite (bankOf bank) off width (BitVec.ofNat 64 v)) s (regPut t bank off width v)

/-! ## The table's rows -/

/-- A write of one register by a bank; hostEp is the host with EP set. -/
def execReg (bank : Bank) (off width v : Nat) (s : State) : Res :=
  let t := regWrite s (bankNo bank) off width v
  .next (if bank = .hostEp && !s.host.d3hot then poisonRx t else t)

def execCragReset (bank : Bank) (s : State) : Res := execReg bank 0x4010 4 1 s
def execSummitRun (bank : Bank) (s : State) : Res := execReg bank 0xA000 4 1 s
def execSummitHalt (bank : Bank) (s : State) : Res := execReg bank 0xA000 4 2 s
def execSummitReset (bank : Bank) (s : State) : Res := execReg bank 0xA000 4 4 s
def execSummitLoad (bank : Bank) (s : State) : Res := execReg bank 0xA000 4 8 s
def execSummitPartyWrite (bank : Bank) (v : W32) (s : State) : Res := execReg bank 0xA008 4 v.toNat s

/-- SELECT_WRITE: select registers 0 to 6, or a select object by its index (R426). -/
def execSelectWrite (bank : Bank) (sel : Nat) (v : W32) (s : State) : Res :=
  if sel < 7 then execReg bank (0x3000 + 8 * sel) 4 v.toNat s
  else if sel ∈ selectObjects then
    let size := match findObj sel 0 with
      | some o => o.ty.size
      | none => 4
    .next (settleS (.selectWrite bank sel v) s (odWrite s (bankAgent bank) sel 0 (natLe size v.toNat)))
  else .refused (.noSuchUnit "select" sel)

/-- BAR0_LOW_HALF_WRITE: BELAY_POST, BELAY_SET or DB_RING (R567). -/
def execBar0LowHalfWrite (bank : Bank) (off : Nat) (v : W32) (s : State) : Res :=
  if wideKind off = some .act then execReg bank off 4 v.toNat s else .next s

def execRegisterWrite (bank : Bank) (off width : Nat) (v : W64) (s : State) : Res := execReg bank off width v.toNat s
def execBelayPostRegister (bank : Bank) (v : W64) (s : State) : Res := execReg bank 0x9010 8 v.toNat s
def execBelaySet (bank : Bank) (v : W64) (s : State) : Res := execReg bank 0x9018 8 v.toNat s

/-- CD_CMO_CMD with an OP (Tables 10.2 and 10.8). -/
def cmoWord (op : Nat) (byWay : Bool) (way : Nat) : Nat := op + b2n byWay * 8 + way % 16 * 16

def execClean (bank : Bank) (byWay : Bool) (way : Nat) (s : State) : Res := execReg bank 0x602C 4 (cmoWord 1 byWay way) s
def execInvalidate (bank : Bank) (byWay : Bool) (way : Nat) (s : State) : Res := execReg bank 0x602C 4 (cmoWord 2 byWay way) s
def execCleanInvalidate (bank : Bank) (byWay : Bool) (way : Nat) (s : State) : Res := execReg bank 0x602C 4 (cmoWord 3 byWay way) s
def execZeroLine (bank : Bank) (byWay : Bool) (way : Nat) (s : State) : Res := execReg bank 0x602C 4 (cmoWord 4 byWay way) s
def execWayenWrite (bank : Bank) (v : W32) (s : State) : Res := execReg bank 0x600C 4 v.toNat s
def execWaypwrWrite (bank : Bank) (v : W32) (s : State) : Res := execReg bank 0x6010 4 v.toNat s
def execSliceEnable (bank : Bank) (s : State) : Res := execReg bank 0x6008 4 1 s
def execSliceDisable (bank : Bank) (force : Bool) (s : State) : Res := execReg bank 0x6008 4 (2 * b2n force) s

/-- MC_CMD (Table 11.11). -/
def execRetrain (bank : Bank) (s : State) : Res := execReg bank 0x5008 4 1 s
def execOffline (bank : Bank) (s : State) : Res := execReg bank 0x5008 4 2 s
def execOnline (bank : Bank) (s : State) : Res := execReg bank 0x5008 4 3 s
def execPpr (bank : Bank) (s : State) : Res := execReg bank 0x5008 4 4 s
def execMark (bank : Bank) (rank dev : Nat) (s : State) : Res := execReg bank 0x5008 4 (5 + rank % 2 * 16 + dev % 8 * 32) s
def execUnmark (bank : Bank) (rank : Nat) (s : State) : Res := execReg bank 0x5008 4 (6 + rank % 2 * 16) s
def execTgGo (bank : Bank) (ctrl : W32) (s : State) : Res := execReg bank 0x5040 4 (ctrl.toNat / 2 * 2 + 1) s

/-- FWD_HOST_REGISTER: the standby applies a write of the primary's host as its own host's (R479). -/
def fwdReg (s : State) (f : Frame) : State :=
  let off := fld f.addr 0 16
  let v := at_ f.payload 0 8
  let width := at_ f.payload 8 1
  if !forwarded off then s else regPut s 0 off width v

def execFwdHostRegister (f : Frame) (s : State) : Res := onFwd (.fwdHostRegister f) 1 f s fun f t => fwdReg t f

end Sys2Proof.Machine
end

