-- ==== Sys2Proof/Machine/HostPort.lean ====
section
/-! DEFINITION. The PCIe port (R442 to R453, R479, R480, R538, R547): BAR2, doorbells, the link, PERST# and configuration requests. -/

namespace Sys2Proof.Machine

open Host

/-! ## BAR2 -/

/-- BAR2 is reached: PERST# is not asserted (R538), the function decodes memory space (R442), and the access lies within BAR2. -/
def bar2Open (s : State) (off n : Nat) : Bool :=
  hostReach s && !s.host.d3hot && decide (off + n ≤ 2 ^ max 30 s.host.bar2Log)

/-- BAR2_READ (R444): after the BAR2 writes before it are acknowledged. -/
def execBar2Read (off n : Nat) (s : State) : Res :=
  if !hostReach s then .next s
  else onMem (.bar2Read off n) s fun w =>
    if bar2Open s off n then hostLater w (.read (bar2At s.host + off) n) else emit w .unsupported

/-- FWD frames of a BAR2 write (Table 16.4), one for each block that it writes. -/
def forwardBar2 (w : Work) (pa : Nat) (data : List Byte) (poisoned : Bool) : Work :=
  (pieces pa data.length).foldl (fun w p =>
    let bs := (data.drop (p.1 - pa)).take p.2
    let whole := p.1 % 128 = 0 && p.2 = 128
    sendFwd w 0 2 (p.1 / 128 * 128) (BitVec.ofNat 2 (b2n poisoned)) (padTo 128 0 (zeros (p.1 % 128) ++ bs)) fun f =>
      { f with part := !whole, first := if whole then 0 else p.1 % 128, nbytes := if whole then 0 else p.2 - 1 }) w

/-- Bytes that a host write stores, with the fault of a poisoned TLP (R448). -/
def hostStore (w : Work) (pa : Nat) (data : List Byte) (poisoned : Bool) : Work :=
  let w := writePa w (reqPort 2 0) pa data poisoned
  if poisoned then raise { w with epRx := true } srcPcie 0x58 0 pa else w

/-- A BAR2 write that the device applies: one acknowledgement is then owed (R444). -/
def bar2Apply (w : Work) (pa : Nat) (data : List Byte) (poisoned : Bool) : Work :=
  let w := if w.fwding then forwardBar2 w pa data poisoned else w
  let w := hostStore w pa data poisoned
  { w with bar2Acks := w.bar2Acks + 1 }

/-- BAR2_WRITE: a standby discards its own host's (R480). -/
def execBar2Write (off : Nat) (data : List Byte) (poisoned : Bool) (s : State) : Res :=
  if !bar2Open s off data.length then .next s
  else onMem (.bar2Write off data poisoned) s fun w =>
    if isStandby w then suppress1 w else bar2Apply w (bar2At s.host + off) data poisoned

/-- FWD_BAR2: the standby applies its pieces. -/
def fwdBar2 (w : Work) (f : Frame) : Work :=
  let w := (writePieces f).foldl (fun w p => hostStore w p.1 p.2.1 p.2.2) w
  { w with bar2Acks := w.bar2Acks + 1 }

def execFwdBar2 (f : Frame) (s : State) : Res := onFwd (.fwdBar2 f) 2 f s fun f t => { t with work := fwdBar2 t.work f }

/-! ## Doorbells -/

/-- DB_RING: an 8 B write on the page of tenancy t. -/
def execDbRing (t : Nat) (v : W64) (s : State) : Res :=
  if t < 16 then .next (regWrite s 0 (0xC040 + 0x400 * t) 8 v.toNat) else .refused (.noSuchUnit "tenancy" t)

/-- FWD_STREAM_DATA (R479). -/
def fwdStream (w : Work) (f : Frame) : Work :=
  let blocks := (List.range (min f.len 2)).map fun j => ((padTo 128 0 (f.payload.drop (128 * j))).take 128, framePois f j)
  fwdArrive w (fld f.addr 0 8) (fld f.addr 8 3) blocks

def execFwdStreamData (f : Frame) (s : State) : Res := onFwd (.fwdStreamData f) 3 f s fun f t => { t with work := fwdStream t.work f }

/-! ## The link, PERST# (R538, R547) -/

/-- The host is gone: reads without a completion end as errors, and streams that wait for a translation deliver poison
(R448, R538). -/
def loseHost (w : Work) : Work :=
  let w := failHostReads { w with hostGone := true }
  (allStreams w).foldl (fun w e =>
    match strmAt w e.1 e.2 with
    | none => w
    | some (o, h) =>
      if dAsp h.desc = 1 && opcOf o.pkt = 0x10 && h.state = 1 && o.outQ = [] && !isStandby w then
        strmGo e.1 { w := w, o := o, h := h, err := none }
      else w) w

/-- The PCIe link goes down (Table 17.3): the port retrains and the host enumerates again. -/
def pcieDown (s : State) : State :=
  { s with work := loseHost (raise s.work srcPcie 0x5B 0 0), host := { s.host with
      pcieUp := false, pcieSt := 3, width := 0, speed := 0, downEvt := true, cfgSpace := [], bar2Log := 30, d3hot := false } }

/-- PCIE_LINK_DOWN. -/
def execPcieLinkDown (s : State) : Res :=
  .next (if s.host.pcieUp then settleS .pcieLinkDown s (pcieDown s) else s)

/-- PCIE_LINK_UP, with the rails on and the device not held in reset (R535, R560): width and speed as negotiated (Tables 15.1 and 15.12). -/
def execPcieLinkUp (width speed : Nat) (s : State) : Res :=
  if s.pwr.perst || !s.pwr.railsUp || !s.it.sysclk then .next s
  else .next { s with work := { s.work with hostGone := false }
                      host := { s.host with pcieUp := true, pcieSt := 2, width := width % 32, speed := speed % 8 } }

/-- PERST_ASSERT: a device reset when PerstMode is 0, else the PCIe port alone. -/
def execPerstAssert (s : State) : Res :=
  if s.pwr.perst then .next s
  else if od s.work 0x7031 = 0 then
    let t := hardReset 2 s
    .next { t with pwr := { t.pwr with perst := true } }
  else
    .next (settleS .perstAssert s { s with
      work := loseHost s.work
      pwr := { s.pwr with perst := true }
      host := { s.host with pcieUp := false, pcieSt := 0, width := 0, speed := 0, cfgSpace := [], bar2Log := 30, d3hot := false,
                            msixTab := [], pba := 0 } })

/-- PERST_DEASSERT: link training starts. -/
def execPerstDeassert (s : State) : Res :=
  if s.pwr.perst then
    .next { s with pwr := { s.pwr with perst := false }, host := { s.host with pcieSt := 1, perstAt := s.work.now } }
  else .next s

/-! ## Configuration requests (R442, R547) -/

/-- Retry until PreOp, which a bring-up that fails does not reach, and for no longer than 1 s after the deassertion of PERST#. -/
def cfgRetry (s : State) : Bool :=
  (s.work.dstate = .init || (s.work.dstate = .stopped && s.work.stopCause = 3)) && decide (s.work.now.toNat < s.host.perstAt.toNat + 10000000)

/-- A byte of configuration space: vendor 0x1FA7, device 0x9440 and class 0x1200 as R442 gives them, every other as Config has it. -/
def cfgByte (h : HostPort) (o : Nat) : Byte :=
  match o with
  | 0x00 => 0xA7 | 0x01 => 0x1F | 0x02 => 0x40 | 0x03 => 0x94
  | 0x0A => 0x00 | 0x0B => 0x12
  | _ => Config.cfgRead o (Mem.get h.cfgSpace o)

/-- A write: what it selects of BAR2's size and the power state is the configuration space's own (log entry 36). -/
def cfgPut (h : HostPort) (off : Nat) (data : List Byte) : HostPort :=
  let c := Mem.write h.cfgSpace off data
  { h with cfgSpace := c, bar2Log := 30 + Config.barSize c % 7, d3hot := Config.inD3hot c }

/-- CONFIGURATION_REQUEST: up to 4 bytes of a space of 4 KiB, over a link that is up. -/
def execConfigurationRequest (isWrite : Bool) (off : Nat) (data : List Byte) (len : Nat) (s : State) : Res :=
  if !s.host.pcieUp then .next s
  else if cfgRetry s then onWork s fun w => emit w .crs
  else if 4096 < off + (if isWrite then data.length else len) then onWork s fun w => emit w .unsupported
  else if isWrite then .next { s with host := cfgPut s.host off data, work := emit s.work (.completion [] false) }
  else onWork s fun w => emit w (.completion ((List.range len).map fun i => cfgByte s.host (off + i)) false)

end Sys2Proof.Machine
end

