-- ==== Sys2Proof/Machine/Traverse.lean ====
section
/-! DEFINITION. Frames that arrive on the Traverse ports, the Rope and inside the device (R454 to R470, R476, R479), time exchanges
(R374 to R377, R460), time-outs (R468) and lanes (R455). Ports 0 to 7 are Traverse, 8 the Rope, 9 the device itself. -/

namespace Sys2Proof.Machine

open Host

/-! ## Headers as bits (Table 15.7) -/

def parseHeader (v : Nat) (payload : List Byte) : Frame :=
  { typ := bitsN v 0 4, len := bitsN v 4 2, poison := BitVec.ofNat 2 (bitsN v 6 2), srcTen := bitsN v 8 4, loc := bitsN v 12 1 = 1
    dst := BitVec.ofNat 16 (bitsN v 16 16), src := BitVec.ofNat 16 (bitsN v 32 16), route := BitVec.ofNat 48 (bitsN v 48 48)
    nhops := bitsN v 96 5, hop := bitsN v 101 5, tag := BitVec.ofNat 12 (bitsN v 112 12), status := bitsN v 124 4
    addr := BitVec.ofNat 48 (bitsN v 128 48), first := bitsN v 176 7, nbytes := bitsN v 183 7, part := bitsN v 190 1 = 1
    inc := BitVec.ofNat 32 (bitsN v 192 32), lseq := BitVec.ofNat 12 (bitsN v 244 12), payload := payload, crc := 0 }

/-! ## Arrival and routing (R462, R476) -/

/-- Frame types that the Rope carries in the present mode. -/
def ropeCarries (w : Work) (typ : Nat) : Bool := typ = 7 || typ = 8 || w.duplex || w.share

/-- A frame that goes on from this device: over its next port, or it is discarded, and a request answered UNREACHABLE. -/
def transit (w : Work) (port : Nat) (f : Frame) : Work :=
  let out := bitsN f.route.toNat (3 * f.hop) 3
  match sendOn w out { f with hop := f.hop + 1 } with
  | (w, true) => w
  | (w, false) =>
    let w := countDiscard w port
    if f.typ = 1 ∨ f.typ = 2 ∨ f.typ = 3 then respond w port f stUnreachable [] 0 else w

/-- The header alone routes a frame (R462). -/
def route (w : Work) (port : Nat) (f : Frame) (deliver : Work → Frame → Work) : Work :=
  if f.loc then deliver w f
  else if f.hop = f.nhops then (if f.dst.toNat = devId w then deliver w f else countDiscard w port)
  else transit w port f

/-- A frame inside the device arrives, after those of its virtual channel that were sent before it (R456, R463, R465). -/
def loopArrive (f : Frame) (deliver : Work → Frame → Work) (w : Work) : Work :=
  if (w.loopQ.find? fun g => vcOf g.typ = vcOf f.typ) = some f then deliver { w with loopQ := w.loopQ.erase f } f
  else w

/-- A frame that has crossed the link of a port. -/
def arrive (port : Nat) (f : Frame) (deliver : Work → Frame → Work) (w : Work) : Work :=
  if port = 8 && !ropeCarries w f.typ then countDiscard w 8 else route w port f deliver

/-- A frame command of a type. -/
def execFrame (cmd : Instr) (typ port : Nat) (f : Frame) (s : State) (deliver : Work → Frame → Work) : Res :=
  let bad := reservedFrame port typ f
  let f := rowFrame port typ f
  if port = 9 then onMem cmd s (loopArrive f deliver)
  else if port < 9 then .next (onLink cmd port f s fun s =>
    { s with work := if bad then countDiscard s.work port else arrive port f deliver s.work })
  else .refused (.noSuchUnit "port" port)

/-! ## Requests (R466, R467, R479) -/

/-- A Duplex primary forwards a request that a Traverse port received before it serves it (Table 16.4). -/
def serve (port : Nat) (w : Work) (f : Frame) : Work :=
  let w := if w.fwding && decide (port < 8) then
      sendFwd w 0 5 0 0 (padTo 128 0 (natLe 32 (headerBits f)) ++ f.payload) id
    else w
  serveRequest w port f

def execWrite (port : Nat) (f : Frame) (s : State) : Res := execFrame (.write port f) 1 port f s (serve port)
def execRead (port : Nat) (f : Frame) (s : State) : Res := execFrame (.read port f) 2 port f s (serve port)
def execPost (port : Nat) (f : Frame) (s : State) : Res := execFrame (.post port f) 3 port f s (serve port)

/-- FWD_TRAVERSE_REQUEST: the standby serves it and leaves the response to the primary. -/
def fwdRequest (w : Work) (f : Frame) : Work :=
  let g := parseHeader (leNat (f.payload.take 32)) (f.payload.drop 128)
  if g.typ = 1 ∨ g.typ = 2 ∨ g.typ = 3 then serveRequest w 10 g else w

def execFwdTraverseRequest (f : Frame) (s : State) : Res := onFwd (.fwdTraverseRequest f) 5 f s fun f t => { t with work := fwdRequest t.work f }

/-! ## Responses (R468) -/

/-- A remote read ends without its data: poisoned zeros, and the fault of the kind. -/
def remoteReadFails (w : Work) (r : Remote) (kind addr : Nat) : Work :=
  remoteRead (cragNote w r.crag kind addr) r.crag r.op (zeros 128) true

/-- A remote post completes its op. -/
def postDone (w : Work) (r : Remote) : Work :=
  let x := getCrag w r.crag
  match findOp x r.op with
  | some o => if o.stage = .waiting && opcOf o.pkt = 0x80 then setCrag w r.crag (setOp x { o with stage := .done }) else w
  | none => w

/-- READ_RESP. -/
def readRespOp (w : Work) (rope : Bool) (r : Remote) (f : Frame) : Work :=
  if f.status ≠ 0 then remoteReadFails w r 0x5E (remoteAddr r.dev f.status)
  else
    let w := meterFrame w rope r.ten f.payload.length
    remoteRead w r.crag r.op ((padTo 128 0 f.payload).take 128) (framePois f 0)

/-- WRITE_ACK. -/
def writeAckOp (w : Work) (r : Remote) (f : Frame) : Work :=
  if f.status = 0 then opAck w r.crag r.op else cragFault w r.crag 0x5E (remoteAddr r.dev f.status)

/-- POST_ACK (R276). -/
def postAckOp (w : Work) (r : Remote) (f : Frame) : Work :=
  if f.status = 0 then postDone w r
  else if f.status = stRefused then belayRange w r.crag r.belay r.dev.toNat
  else cragFault w r.crag 0x5E (remoteAddr r.dev f.status)

/-- A response ends the request that it answers; one that answers none is ignored. -/
def response (typ : Nat) (g : Work → Remote → Frame → Work) (w : Work) (f : Frame) : Work :=
  match takeRemote w f.tag with
  | (w', some r) => if r.typ = typ then g w' r f else w
  | (_, none) => w

def execReadResp (port : Nat) (f : Frame) (s : State) : Res :=
  execFrame (.readResp port f) 4 port f s (response 2 fun w r f => readRespOp w (port = 8) r f)
def execWriteAck (port : Nat) (f : Frame) (s : State) : Res := execFrame (.writeAck port f) 5 port f s (response 1 writeAckOp)
def execPostAck (port : Nat) (f : Frame) (s : State) : Res := execFrame (.postAck port f) 6 port f s (response 3 postAckOp)

/-- TRAV_TIMEOUT: no response within TravTimeout. -/
def travTimeout (w : Work) (tag : BitVec 12) : Work :=
  match takeRemote w tag with
  | (_, none) => w
  | (w', some r) =>
    if w.now.toNat < r.sentAt.toNat + od w 0x1304 then w
    else if r.typ = 2 then remoteReadFails w' r 0x5F r.dev.toNat
    else cragFault w' r.crag 0x5F r.dev.toNat

def execTravTimeout (tag : BitVec 12) (s : State) : Res := onMem (.travTimeout tag) s fun w => (travTimeout w tag)

/-! ## Time exchanges (R374 to R377, R460) -/

/-- Upstream device ID that this device reports: of the neighbour it follows; with no neighbour, the spec gives none, and it is a
free value (log entry 4). -/
def upstreamId (s : State) : BitVec 16 × Work :=
  if (followPort s).isSome then (s.it.upstream, s.work)
  else
    let (v, w) := freeVal s.work
    (BitVec.ofNat 16 (fld v 0 16), w)

/-- A TIME frame of this device: T1, T2, T3, then what every exchange carries (R377). -/
def timeFrame (s : State) (t1 t2 t3 : Nat) (reply : Bool) : Frame × Work :=
  let (up, w) := upstreamId s
  let p := natLe 8 t1 ++ natLe 8 t2 ++ natLe 8 t3 ++ natLe 2 up.toNat ++ natLe 1 s.it.state.code ++ natLe 1 s.it.hops ++
    natLe 1 (b2n s.it.upHold + 2 * b2n reply)
  ({ blankFrame w 7 0 with loc := true, len := 1, payload := padTo 128 0 p }, w)

/-- A Rope whose twins show the same SEAT carries LINK frames only (R474). -/
def linkOnly (s : State) (p : Nat) : Bool := p = 8 && s.twin.seatConf

/-- One exchange request on a port. Its T1 is that of its sending. -/
def timeRequest (s : State) (p : Nat) : State :=
  if !portLive s.work p || linkOnly s p then s
  else
    let (f, w) := timeFrame s 0 0 0 false
    { s with work := (sendOn w p f).1 }

/-- TIME_EXCHANGE_TIMER: the ports of ITTxMask. -/
def execTimeExchangeTimer (s : State) : Res := .next ((maskList 9 (od s.work 0x8007)).foldl timeRequest s)

/-- The reply to a request: T1 echoed, T2 as received; T3 is that of its sending. -/
def timeReply (s : State) (p : Nat) (f : Frame) : State :=
  let (t2, w) := stamp s.work
  let (g, w) := timeFrame { s with work := w } (at_ f.payload 0 8) t2 0 true
  { s with work := (sendOn w p g).1 }

/-- The measured offset in ns, the half of the difference of two timestamps differences in 1/1,024 ticks; rounded down. -/
def exchangeOffset (s : State) (p t1 t2 t3 t4 : Nat) : Int :=
  let d := toSigned 64 (t2 + 2 ^ 64 - t1) - toSigned 64 (t4 + 2 ^ 64 - t3)
  let asym := toSigned 32 (od s.work 0x8008 (p + 1))
  d * 100 / 2048 + (if Config.asymAdds then asym else -asym)

/-- A neighbour that may be followed: a valid state (R376), and not one whose upstream is this device (R377). -/
def neighbourOk (s : State) (st up : Nat) : Bool := (st = 2 || st = 3 || st = 4) && up ≠ devId s.work

/-- A reply to the exchange under way on the port that is followed. -/
def timeMeasure (s : State) (p : Nat) (f : Frame) : State :=
  let t1 := at_ f.payload 0 8
  if (getPort s.work p).sentT1 ≠ t1 + 1 then s
  else
    let s := { s with work := setPort s.work p { getPort s.work p with sentT1 := 0 } }
    let st := at_ f.payload 26 1
    let flags := at_ f.payload 28 1
    if followPort s ≠ some p || !neighbourOk s st (at_ f.payload 24 2) then s
    else
      let (t4, w) := stamp s.work
      let s := { s with work := w, it := { s.it with exchAge := 0, upHold := st = 3 || st = 4 || flags % 2 = 1, upstream := f.src
                                                     hops := min 255 (at_ f.payload 27 1 + 1) } }
      measure s (exchangeOffset s p t1 (at_ f.payload 8 8) (at_ f.payload 16 8) t4)

/-- TIME on a port. -/
def timeOp (s : State) (p : Nat) (f : Frame) : State :=
  if linkOnly s p then { s with work := countDiscard s.work p }
  else if at_ f.payload 28 1 / 2 % 2 = 1 then timeMeasure s p f else timeReply s p f

def execTime (port : Nat) (f : Frame) (s : State) : Res :=
  let g := rowFrame port 7 f
  onUnit "port" 9 port s fun s => onLink (.time port f) port g s fun s =>
    if reservedFrame port 7 f then { s with work := countDiscard s.work port } else timeOp s port g

/-! ## LINK frames and lanes -/

/-- LINK (R456, R461): its reports act, and when it is the next in order the neighbour's device ID and its credits; then what waited for
them goes out. -/
def linkOp (w : Work) (p : Nat) (f : Frame) (l : LinkInfo) : Work :=
  if !portUp w p then w
  else
    let w := if f.crc = frameCrc f then takeReports w p l else w
    match linkTake w p f with
    | (w, false) => flush (linkSend w p) p
    | (w, true) =>
      let w := setPort w p { getPort w p with neigh := some f.src }
      flush (returnCredit (takeCredits w p l) p f) p

def execLink (port : Nat) (f : Frame) (s : State) : Res :=
  onUnit "port" 9 port s fun s =>
    if reservedFrame port 8 f then onLink (.link port f) port f s fun s => { s with work := countDiscard s.work port }
    else { s with work := linkOp s.work port { f with typ := 8 } (linkRead f) }

def laneMask (l : List Nat) : BitVec 18 := BitVec.ofNat 18 ((l.map fun i => 2 ^ i).sum)

/-- The lanes of a port that trains. A spare once used is not returned (R515): which of the first four it stands in for no record keeps, a
free value (log entry 4). -/
def trainLanes (w : Work) (used : Bool) : Work × BitVec 18 :=
  if used then
    let (v, w) := freeVal w
    (w, laneMask ((List.range 4).eraseIdx (v.toNat % 4) ++ [4]))
  else (w, 0xF)

/-- A port at the start of its training, with its lanes chosen. -/
def startLanes (s : State) (p : Nat) : State :=
  let x := getPort s.work p
  if x.state = 1 && x.lanes ≠ 0 then s
  else
    let used := s.misc.travUsed.getLsbD p
    let (w, l) := trainLanes s.work used
    { s with work := setPort w p { linkFresh x with lanes := l, spares := b2n used, half := false } }

/-- TRAV_LINK_UP: training or retraining completes with the lanes that it found. -/
def travUp (s : State) (p : Nat) : State :=
  let w := s.work
  let x := getPort w p
  if !portEnabled w p || !linksMay s then s
  else if x.state = 3 then { s with work := flush (linkSend (setPort w p { x with state := 2 }) p) p }
  else if x.state = 2 then s
  else
    let s := startLanes s p
    { s with work := linkSend (setPort s.work p { getPort s.work p with state := 2, linkDue := true }) p }

def execTravLinkUp (port : Nat) (s : State) : Res := onUnit "Traverse port" 8 port s fun s => travUp s port

/-- Two of the lanes that are left; the spec does not say which, and the one that idles is a free value (log entry 4). -/
def twoLanes (w : Work) (lanes : List Nat) : Work × List Nat :=
  let (v, w) := freeVal w
  (w, (lanes.eraseIdx (v.toNat % lanes.length)).take 2)

/-- A Traverse link goes down. -/
def travDown (w : Work) (p : Nat) : Work :=
  raise (setPort w p { linkFresh (getPort w p) with state := 4, downEvt := true, lanes := 0, credit := [] }) (srcPort p) 0x5D 0 0

/-- TRAV_LANE_FAIL (R455) of an active lane, in training too: the spare, then half width, then down. Lane 4 is the spare as built. -/
def travLaneFail (s : State) (p lane : Nat) : State :=
  let s := if (getPort s.work p).state = 1 then startLanes s p else s
  let x := getPort s.work p
  let left := (List.range 4).filter fun i => i ≠ lane && x.lanes.getLsbD i
  let src := srcPort p
  if (x.state = 0 || x.state = 4) || !x.lanes.getLsbD lane then s
  else if x.half then { s with work := travDown s.work p }
  else if x.spares = 0 then
    let w := setPort s.work p { x with spares := 1, lanes := laneMask (left ++ [4]), state := if x.state = 1 then 1 else 3 }
    { s with work := raise w src 0x5C 0 0, misc := { s.misc with travUsed := setBit s.misc.travUsed p true } }
  else
    let rest := ((List.range 5).filter fun i => i ≠ lane && x.lanes.getLsbD i)
    let (w, two) := twoLanes s.work rest
    { s with work := raise (setPort w p { x with half := true, lanes := laneMask two }) src 0x5C 0 0 }

def execTravLaneFail (port lane : Nat) (s : State) : Res :=
  if lane < 5 then onUnit "Traverse port" 8 port s fun s => travLaneFail s port lane else .refused (.noSuchUnit "lane" lane)

end Sys2Proof.Machine
end

