-- ==== Sys2Proof/Machine/Power.lean ====
section
/-! DEFINITION. Rails, stretching, heat and bring-up (R524 to R532, R544 to R547, Tables 18.1, 18.2 and 18.8). -/

namespace Sys2Proof.Machine

/-! ## The supply dip (R529) -/

/-- VDD_CORE_DIP: VDD_CORE is below warning; a stretch under way goes on. -/
def execVddCoreDip (s : State) : Res :=
  let now := s.work.now
  .next { s with pwr := { s.pwr with kDip := 4, dipAt := if s.pwr.kDip = 8 then now else s.pwr.dipAt, dipLow := now } }

/-- The recovery holds: VDD_CORE has stayed at or above 0.865 V for 100 us, and fell below warning no later than that. -/
def dipOver (s : State) (us : Nat) : Bool :=
  s.pwr.kDip ≠ 8 && decide (100 ≤ us) && decide (s.pwr.dipLow.toNat + 10 * us ≤ s.work.now.toNat)

/-- The stretch so far, in microseconds. -/
def dipUs (s : State) : W32 := BitVec.ofNat 32 ((s.work.now.toNat - s.pwr.dipAt.toNat) / 10)

/-- DIP_RECOVERY: the request ends; the power manager reports the stretch, counts and records it. -/
def execDipRecovery (us : W32) (s : State) : Res :=
  if !dipOver s us.toNat then .next s
  else .next { s with work := raise s.work srcPower 0x80 0 (dipUs s).toNat
                      pwr := { s.pwr with kDip := 8, dips := s.pwr.dips + 1, dipLast := dipUs s } }

/-! ## Rails (Tables 18.1 and 18.2) -/

/-- Nominal voltage of a monitor's rail, in mV (R524). -/
def railNominal (m : Nat) : Nat :=
  if m < 8 then 900
  else if m < 12 then 950
  else if m < 14 then 900
  else if m < 16 then 1100
  else if m < 18 then 900
  else if m < 20 then 1200
  else if m < 22 then 900
  else 1800

/-- Warning threshold of a monitor's rail, 5% below nominal, in tenths of a mV. -/
def railWarning (m : Nat) : Nat := railNominal m * 95 / 10

/-- Reset and overvoltage thresholds of a monitor's rail, 10% below and above nominal, in mV. -/
def railLimits (m : Nat) : Nat × Nat := (railNominal m * 90 / 100, railNominal m * 110 / 100)

/-- Whether a monitor's rail is switched by Basecamp. -/
def railSwitched (m : Nat) : Bool := decide (m < 20)

/-- RAIL_WARN_END: a rail other than VDD_CORE has been below warning for a time and returns. -/
def execRailWarnEnd (monitor : Nat) (us : W32) (s : State) : Res :=
  onUnit "voltage monitor" 24 monitor s fun s =>
    if monitor < 8 || (railSwitched monitor && !s.pwr.railsUp) then s
    else { s with work := raise s.work (srcVolt monitor) 0x80 0 us.toNat }

/-- The rails that Basecamp switches, in the order in which it enables them (Table 18.3, step 7). -/
def railOrder : List String := ["VDD_PORT", "VDD_SRAM", "VDD_CORE", "VDD_SERDES_L", "VDD_SERDES_H", "VDDQ"]

/-- RESET_n of the DRAM of every channel. -/
def dramResets : List String := (List.range 24).map fun c => "M" ++ toString c ++ "_RESET_N"

/-- The rails enabled over PMBus, in order. -/
def railsOn (w : Work) : Work := railOrder.foldl (fun w r => emit w (.rail r true)) w

/-- The rails switched off in the reverse order, each below 10% of nominal before the next (R527): before VDDQ, which is the first, the
DRAM is put in self-refresh and its RESET_n driven low. -/
def railsOff (w : Work) : Work :=
  railOrder.reverse.foldl (fun w r => emit w (.rail r false)) (dramResets.foldl (fun w n => pinOut w n false) w)

/-- The state on the rails that Basecamp switches is lost (R527): Crags and Summits, cache slices, channel controllers, and the serial
links. A Basecamp that is not at work switches them off when it is again. -/
def dropRails (s : State) : State :=
  if !s.pwr.railsUp then s
  else if !basecampUp s then { s with pwr := { s.pwr with offDue := true } }
  else
    let w := loseHost s.work
    let w := { w with hold := none, summits := [], posts := [], remotes := [], mcast := [], upds := [], loopQ := []
                      crags := Tab.mapV cragD (fun _ x => keepCrag .hard x) w.crags
                      slices := Tab.mapV sliceD (fun _ x => keepSlice x) w.slices
                      chs := Tab.mapV chD (fun _ x => { keepCh .hard x with resetN := false }) w.chs
                      ports := Tab.mapV (fun _ => Port.reset) (fun _ p => { linkFresh p with state := 4, downEvt := true, lanes := 0, credit := [] }) w.ports }
    { s with work := railsOff w
             pwr := { s.pwr with railsUp := false, offDue := false }
             host := { s.host with pcieUp := false, pcieSt := 4, width := 0, speed := 0, downEvt := true, cfgSpace := [], bar2Log := 30,
                                   d3hot := false } }

/-- SUPPLY_FAIL: a rail has been below reset or above overvoltage for 1 µs; VDD_AON below reset is POR instead. A dip that
reaches it sends no SUPPLY_WARN. -/
def supplyFail (s : State) (m : Nat) (mv : BitVec 16) : State :=
  let (lo, hi) := railLimits m
  let low := decide (mv.toNat < lo)
  if m = 20 || m = 21 then (if low then resetWith .por 0 s else s)
  else if (!low && !decide (hi < mv.toNat)) || (railSwitched m && !s.pwr.railsUp) then s
  else
    let p := { s.pwr with railMv := Tab.set (fun _ => none) s.pwr.railMv m (some mv), kDip := if m < 8 then 8 else s.pwr.kDip }
    dropRails { s with work := raise s.work (srcVolt m) 0x81 0 mv.toNat, pwr := p }

def execSupplyFail (monitor : Nat) (mv : BitVec 16) (s : State) : Res :=
  onUnit "voltage monitor" 24 monitor s fun s => supplyFail s monitor mv

/-- BASECAMP_RETURN: mailboxes, management port and held Event Table actions work again; rails that were to be switched off meanwhile are
switched off. -/
def execBasecampReturn (s : State) : Res :=
  let s := { s with fw := { s.fw with busy := false } }
  .next (if s.pwr.offDue then dropRails s else s)

/-! ## Heat (R530, R531) -/

def tempD : Nat → Int := fun _ => 0

/-- The hottest of the readings and its sensor, the lowest of equals. -/
def hottestOf (l : List Int) : Nat × Int :=
  (l.zipIdx).foldl (fun b e => if b.2 < e.1 then (e.2, e.1) else b) (0, l.headD 0)

/-- A temperature in ADDR[7:0] (Table 17.3), two's complement. -/
def tempAddr (t : Int) : Nat := (t % 256).toNat

/-- THERM_WARN at 95 °C, once until the hottest reading falls below 92 °C. -/
def thermWarn (s : State) (src : BitVec 16) (t : Int) : State :=
  if 95 ≤ t ∧ s.pwr.warnArmed = true then
    { s with work := raise s.work src 0x82 0 (tempAddr t), pwr := { s.pwr with warnArmed := false } }
  else if t < 92 then { s with pwr := { s.pwr with warnArmed := true } }
  else s

/-- The thermal request: one step each millisecond, that is every ten readings; THERM_THROTTLE once when it leaves 8. -/
def thermStep (s : State) (src : BitVec 16) (t : Int) : State :=
  let p := { s.pwr with thermMs := min 10 (s.pwr.thermMs + 1) }
  if p.thermMs < 10 then { s with pwr := p }
  else if 105 ≤ t ∧ 2 < p.kTherm then
    let w := if p.throttled then s.work else raise s.work src 0x83 0 (tempAddr t)
    { s with work := w, pwr := { p with kTherm := p.kTherm - 1, thermMs := 0, throttled := true } }
  else if t < 102 ∧ p.kTherm < 8 then
    { s with pwr := { p with kTherm := p.kTherm + 1, thermMs := 0, throttled := decide (p.kTherm + 1 < 8) } }
  else { s with pwr := p }

/-- Thermal trip at 115 °C: THERMTRIP_N, THERM_TRIP, rails off, and the 60 s hold-off. -/
def thermTrip (s : State) (src : BitVec 16) (t : Int) : State :=
  if t < 115 || s.pwr.tripN then s
  else
    let w := raise (pinOut s.work "THERMTRIP_N" false) src 0x84 0 (tempAddr t)
    dropRails { s with work := w, pwr := { s.pwr with tripN := true, tripLeft := some 600000000 } }

/-- THERMAL_READ: the readings of sensors 0 to 63. -/
def thermalRead (s : State) (readings : List Int) : State :=
  let l := readings.take 64
  if l = [] then s
  else
    let (n, t) := hottestOf l
    let temps := (l.zipIdx).foldl (fun tab e => Tab.set tempD tab e.2 e.1) s.pwr.temps
    let s := { s with pwr := { s.pwr with temps := temps, hottest := t } }
    let src := srcTherm n
    thermTrip (thermStep (thermWarn s src t) src t) src t

def execThermalRead (readings : List Int) (s : State) : Res := .next (thermalRead s readings)

/-- Whether the hold-off of a trip is over: 60 s in ticks, which every reset leaves running. -/
def tripOver (s : State) : Bool := s.pwr.tripLeft.all (· = 0)

/-- TRIP_HOLDOFF_EXPIRY. -/
def execTripHoldoffExpiry (s : State) : Res :=
  .next (if tripOver s then { s with pwr := { s.pwr with tripLeft := none } } else s)

/-! ## Bring-up (Table 18.8) -/

/-- Phase 1, after POR: the boot ROM checks both slots and boots one (R542). A slot that still holds its image from manufacture, whose
bytes the model does not hold, is as the command says (log entry 9). -/
def bootPhase (s : State) (b : BringUpIn) : State :=
  let ver := fun (f : Firmware) (k : Nat) (ok : Bool) =>
    let old := imageVer f k
    let new := if !ok then 0 else if old ≠ 0 then old else if Config.bootVersion = 0 then 1 else Config.bootVersion
    if slotImage f k = [] then { f with ver := Tab.set u32D f.ver k new } else f
  let f := bootFw (ver (ver s.fw 0 b.slotAValid) 1 b.slotBValid) s.work.now
  { s with fw := { f with booted := true } }

/-- Whether this bring-up is the first since POR, whatever RST_N has done meanwhile (R526): only then phase 1 runs. -/
def afterPor (s : State) : Bool := !s.fw.booted

/-- The straps as POR latched them (R558), and the management port's PHY out of its reset (Table 19.6). -/
def readStraps (s : State) (b : BringUpIn) : State :=
  { s with work := pinOut { s.work with fuses := { s.work.fuses with seat := b.seat, testMode := b.testMode } } "GE_PHY_RST_N" true }

/-- Phase 2 after POR: straps are read, and the IT source is acquired; IT kept its source through a device reset. -/
def startIt (s : State) (b : BringUpIn) : State :=
  let v := od s.work 0x8001
  let s := readStraps s b
  { s with it := { s.it with state := if v = 0 then .free else .acquiring, good := 0 }, pwr := { s.pwr with bootDue := false } }

/-- The domain that holds an address of domain space. -/
def domainOf (a : Nat) : Nat := a / 2 ^ 37

/-- Whether bring-up fails (R546). -/
def bringUpFails (w : Work) (b : BringUpIn) : Bool :=
  let dead := b.failedChannels.map (· / 4)
  !b.railsOk || !b.pllOk || !b.ridgeOk || b.fatalInInit || decide (domainOf (od w 0x2320) ∈ dead) ||
    decide (domainOf (od w 0x2321) ∈ dead)

/-- A cache bank that fails its test is spared, or its way retired (R334). -/
def spareBank (s : State) (k : Nat) : State :=
  if 4096 ≤ k ∨ 20 ≤ k % 32 then s
  else
    let d := k / 1024
    let (w, used) := bankSpare s.work d (k / 32 % 32) (k % 32)
    let n := Tab.get zeroD s.misc.bankUsed (d + 1) + b2n used
    { s with work := w, misc := { clearBank s.misc k with bankUsed := Tab.set zeroD s.misc.bankUsed (d + 1) n } }

/-- The cache configuration in the order of R337. -/
def applyCacheCfg (w : Work) : Work :=
  let w := { w with cacheCfg := (od w 0x2330, od w 0x2332) }
  (List.range 4).foldl (fun w d =>
    let x := getSlice w d
    let ways := BitVec.ofNat 16 (od w 0x2332) &&& ~~~x.wayRet
    setSlice w d { x with wpmS := od w 0x2331 = 1, wayEn := ways, wayPwr := ways, enabled := od w 0x2330 = 1 }) w


/-- Channels train (R357, R361). -/
def trainChannels (w : Work) (failed : List Nat) : Work :=
  (List.range 24).foldl (fun w c =>
    let m := getCh w c
    if c ∈ failed then raise (setCh w c { m with state := 5, trainFail := true }) (srcCh c) 0x44 0 0
    else setCh w c { m with state := serviceState m, tgBusy := false, trained := true, trainFail := false, resetN := true,
                            lastTrain := w.now, trainTemp := m.temp }) w

/-- PCIe link training is enabled (phase 4, R547). -/
def startPcie (s : State) : State :=
  let h := s.host
  { s with host := if h.pcieUp || s.pwr.perst then h else { h with pcieSt := 1 } }

/-- Traverse and Rope links of ports in use begin to train; PCIe training is enabled (R547). -/
def trainLinks (s : State) : State :=
  let w := (List.range 8).foldl (fun w p =>
    if portEnabled w p then setPort w p { getPort w p with state := 1, lanes := 0, half := false } else w)
    { s.work with portsOn := BitVec.ofNat 8 (od s.work 0x1301) }
  let w := if ropeFitted w then setPort w 8 { getPort w 8 with state := 1 } else w
  startPcie { s with work := w }

/-- Spares are brought in for every marked Crag (phase 7, R518). -/
def spareMarked (s : State) (failed : List Nat) : State :=
  (List.range 256).foldl (fun s c =>
    if (getCrag s.work c).marked && cragPresent s.work c then spareCrag s c failed else s) s

/-- Phases 8 and 9: PreOp, the first usage interval of tenancy 0, Basecamp's Event Table entries. -/
def enterPreOp (s : State) : State :=
  let w := setTen s.work 0 { getTen s.work 0 with startIt := s.work.now }
  let s := openFlags { s with work := { w with dstate := .preOp, stopCause := 0 } } 0
  armBasecamp { s with misc := { s.misc with meterIv := BitVec.ofNat 64 (od s.work 0x5000) } }

/-- A kind 1 activation drives the device on to Ready (R435, R438). -/
def finishActivation (s : State) : State :=
  if s.cfg.phase = 2 then
    { s with work := enterReady s.work, cfg := { s.cfg with phase := if s.cfg.confirmedBefore then 0 else 3, confirmedBefore := false } }
  else s

/-- The phases that follow the enabling of the rails. -/
def bringUpRest (s : State) (b : BringUpIn) : State :=
  let s := { s with work := testFails s.work b.failedCrags b.failedSummits, pwr := { s.pwr with selfTest := selfTestBits b.failedCrags b.failedSummits } }
  let s := b.failedBanks.foldl spareBank s
  let s := trainLinks { s with work := trainChannels (applyCacheCfg s.work) b.failedChannels }
  finishActivation (enterPreOp (spareMarked s b.failedSpares))

/-- Phase 2: the working values are loaded from the active version (R433); a version on probation is not booted (R439). -/
def bootConfig (s : State) : State := if s.cfg.phase = 3 then rollbackBoot s 3 else loadActive s

/-- FATAL_N for a fatal fault during Init (R507). -/
def initFatal (s : State) (b : BringUpIn) : State :=
  if b.fatalInInit then { s with work := pinOut s.work "FATAL_N" false, fc := { s.fc with fatalN := true } } else s

/-- Phase 3: rails that are off are enabled in order. A rail that was switched off reads anew. -/
def enableRails (s : State) (ok : Bool) : State :=
  if s.pwr.railsUp then s
  else { s with work := railsOn s.work, pwr := { s.pwr with railsUp := ok, offDue := false, railMv := [] } }

/-- Messages that sources hold, one of them fatal: the collector accepts them in the course of the bring-up, which fails. -/
def acceptAll (s : State) : State :=
  let t := s.work.faultQ.foldl (fun s _ => acceptNext s) s
  if t.work.dstate = .stopped then { t with work := { t.work with stopCause := 3 } } else t

/-- Whether Basecamp may enable its rails: RST_N is high, and no trip's hold-off runs (R526, R531). Rails that are up need no enabling. -/
def railsMay (s : State) (b : BringUpIn) : Bool := b.rstHigh && (s.pwr.railsUp || tripOver s)

/-- BRING_UP from its first phase. While RST_N is low or a hold-off runs it waits at the end of phase 2, and in recovery before the rails. A
fatal fault of Init that its source still holds fails the bring-up (R507, R546). -/
def bringUp (s : State) (b : BringUpIn) : State :=
  let s := if afterPor s then bootPhase s b else s
  if s.fw.recovery then (if railsMay s b then startPcie (enableRails s b.railsOk) else s)
  else
    let s := bootConfig s
    let s := if s.pwr.bootDue then startIt s b else s
    if s.work.faultQ.any fun m => m.cls = 2 then acceptAll s
    else if !railsMay s b then s
    else
      let s := enableRails s b.railsOk
      if bringUpFails s.work b then bringUpFail (initFatal s b) else bringUpRest s b

/-- Whether bring-up can run: the device is in Init, SYSCLK is present, and Basecamp runs. -/
def bringUpMay (s : State) : Bool := s.work.dstate = .init && s.it.sysclk && !s.fw.busy && !s.fw.dead

/-! ## Pin states (Table 19.6) -/

/-- A group of balls: those of a channel, of a serial port (0 to 7 Traverse, 8 the Rope, 9 PCIe), and the strip's. -/
inductive BallGroup
  | dq (ch : Nat) | ca (ch : Nat) | resetN (ch : Nat) | serialTx (port : Nat) | serialRx (port : Nat)
  | inputs | timePps | fatalN | thermtripN | basecampOuts | phyReset
  deriving DecidableEq, Repr

/-- The electrical state of a group. -/
inductive PinState
  | highZ | highZTermOff | input | driven | high | low | released | idle | active | ignored | selfRefresh
  deriving DecidableEq, Repr

/-- Whether a serial port is present and enabled, so that its transmitters are active (R557). -/
def serialOn (s : State) (p : Nat) : Bool :=
  if p = 9 then s.host.pcieSt ≠ 0 else if p = 8 then ropeFitted s.work && (getPort s.work 8).state ≠ 0 else portEnabled s.work p

/-- The state of a group of balls (R559), with VDD_AON up: with the rails off, in a device reset that is held, and otherwise. -/
def pinState (s : State) (g : BallGroup) : PinState :=
  let off := !s.pwr.railsUp
  let reset := !s.it.sysclk
  match g with
  | .dq _ => if off then .highZ else if reset then .highZTermOff else .driven
  | .ca _ => if off then .highZ else if reset then .selfRefresh else .driven
  | .resetN c => if off then .highZ else if reset || (getCh s.work c).resetN then .high else .low
  | .serialTx p => if off then .highZ else if reset || !serialOn s p then .idle else .active
  | .serialRx p => if off then .highZ else if reset || !serialOn s p then .ignored else .active
  | .inputs => .input
  | .timePps => .driven
  | .fatalN => if s.fc.fatalN then .low else .released
  | .thermtripN => if s.pwr.tripN then .low else .released
  | .basecampOuts => if s.fw.dead then .highZ else .driven
  | .phyReset => if s.pwr.bootDue then .low else .high

def execBringUp (b : BringUpIn) (s : State) : Res :=
  .next (if bringUpMay s then settleS (.bringUp b) s (bringUp s b) else s)

end Sys2Proof.Machine
end

