-- ==== Sys2Proof/Machine/Detect.lean ====
section
/-! DEFINITION. Detection of a fault by a unit: the reaction of its kind, then the message (R502 to R505, Table 17.3). -/

namespace Sys2Proof.Machine

open Host

/-- A unit detects a fault: its reaction, then the message it holds (R505). The class and IT are those of the kind and of the
moment (R502); a Crag's or Summit's fault is charged to its tenancy. A reserved kind is no fault. A kind whose reaction is one access's own
(MEM_OFFLINE, CACHE_LOST and the like) asks nothing more of the message. -/
def detect (s : State) (m : FaultMsg) : State :=
  let w := s.work
  let k := m.kind.toNat
  let typ := fld m.src 8 5
  let idx := fld m.src 0 8
  let plain := { s with work := raise w m.src k m.ten.toNat m.addr.toNat }
  if !decide (k ∈ knownKinds) then s
  else if typ = 0 then
    match logicalOf w (fld m.src 13 3) idx with
    | some c => { s with work := cragDetect w c m }
    | none => s
  else if typ = 1 ∧ k = 0x0C then (if idx < 16 then { s with work := summitUe w idx m } else s)
  else if typ = 1 ∧ k = 0x0D then
    (if idx < 16 then { s with work := withdrawSpur (raise w m.src k (tenOfSpur w idx) m.addr.toNat) idx } else s)
  else if k = 0x25 then
    let b := fld m.addr 0 16
    { s with work := clearBelay (raise w m.src k ((belayOwner w b).getD 0) b) b }
  else if k = 0x30 ∨ k = 0x31 then
    let s := sliceDetect s m
    { s with work := raise s.work m.src k m.ten.toNat m.addr.toNat }
  else if k = 0x77 then flashFail s m
  else if typ = 1 ∧ idx < 16 ∧ (k = 0x06 ∨ (k ∈ partyStopKinds ∧ k ≠ 0x07)) then
    { s with work := stopParty (raise w m.src k (tenOfSpur w idx) m.addr.toNat) (leaderOf w idx) }
  else if k = 0x44 ∧ typ = 6 ∧ idx < 24 then { s with work := trainFails w idx }
  else if k = 0x5B then (if s.host.pcieUp then pcieDown s else plain)
  else if k = 0x5D ∧ typ = 9 ∧ idx < 8 then { s with work := travDown w idx }
  else if k = 0x61 then
    let s := ropeLost s
    { s with work := raise s.work m.src k 0 0 }
  else if k = 0x66 ∨ k = 0x67 then fence plain
  else plain

/-- FAULT_MESSAGE: a unit detects a fault, or the collector accepts the oldest message that its source holds. -/
def execFaultMessage (m : Option FaultMsg) (s : State) : Res :=
  match m with
  | none => .next (acceptNext s)
  | some m => .next (settleS (.faultMessage (some m)) s (detect s m))

end Sys2Proof.Machine
end

