-- ==== Sys2Proof/Machine/Misc.lean ====
section
/-! DEFINITION. The management port's ICMPv6, JTAG, the SMBus target and the PMBus alert (R419, R554, R565). The spec names
protocols and standards and little of what the block does with them; log entry 39 says what is presumed. -/

namespace Sys2Proof.Machine

/-! ## ICMPv6 -/

/-- An address from a 64-bit prefix and the port's interface identifier. -/
def ifAddr (pfx : BitVec 64) : BitVec 128 := pfx ++ Config.interfaceId

/-- The port's own addresses: link-local, SLAAC, and MgmtAddr when it is not zero. -/
def ownAddrs (s : State) : List (BitVec 128) :=
  let cfg := BitVec.ofNat 128 (leNat (natLe 16 (od s.work 0x1101)).reverse)
  ifAddr 0xFE80000000000000 :: (s.misc.slaac ++ if cfg = 0 then [] else [cfg])

/-- What the port does with a message: it answers echo requests and solicitations for its own addresses, learns neighbours, and
forms an address under an autonomous prefix. -/
def icmp6 (s : State) (m : Icmp6) : State :=
  let send := fun (r : Icmp6) => { s with work := emit s.work (.icmp6 r) }
  match m with
  | .echoRequest i q d => send (.echoReply i q d)
  | .echoReply _ _ _ => s
  | .neighbourSolicit t => if t ∈ ownAddrs s then send (.neighbourAdvert t Config.mgmtMac) else s
  | .neighbourAdvert t mac =>
    { s with misc := { s.misc with macTable := (s.misc.macTable.filter fun e => e.1 ≠ t) ++ [(t, mac)] } }
  | .routerAdvert pfx auto =>
    let a := ifAddr pfx
    if auto && !decide (a ∈ s.misc.slaac) then { s with misc := { s.misc with slaac := s.misc.slaac ++ [a] } } else s
  | .other _ => s

/-- ICMPV6_MESSAGE: ignored by a port that is not served. -/
def execIcmpv6Message (m : Icmp6) (s : State) : Res := .next (if mgmtServed s then icmp6 s m else s)

/-! ## JTAG -/

/-- The bits of a number, least significant first. -/
def bitList (n v : Nat) : List Bool := (List.range n).map v.testBit

/-- IDCODE: version 1, part 0x9440, bits 11:1 zero, bit 0 one (R565). -/
def idcode : Nat := 0x19440001

/-- Free bits, in words of 64. -/
def freeBits : Nat → Work → List Bool × Work
  | 0, w => ([], w)
  | n + 1, w =>
    let (v, w) := freeVal w
    let (rest, w) := freeBits n w
    (bitList 64 v.toNat ++ rest, w)

/-- Drives TDO, high-Z while Basecamp is held in reset (Table 19.6). -/
def jtagOut (s : State) (bits : List Bool) : State :=
  if s.fw.dead then s else { s with work := emit s.work (.jtag bits) }

/-- A scan through a register that captured a value of its own. -/
def scanReg (s : State) (cap bits : List Bool) : State :=
  let all := cap ++ bits
  jtagOut { s with misc := { s.misc with jtagDr := all.drop bits.length } } (all.take bits.length)

/-- A scan through the boundary register: what it captured of the balls is a free value; what is shifted in is its new content. -/
def scanPins (s : State) (bits : List Bool) : State :=
  let (out, w) := freeBits ((bits.length + 63) / 64) s.work
  jtagOut { s with work := w, misc := { s.misc with jtagDr := bits } } (out.take bits.length)

/-- A data register scan under the instruction loaded: an instruction that is not supported acts as BYPASS on a part whose test
fuse is blown. -/
def scanDr (s : State) (bits : List Bool) : State :=
  match s.misc.jtagIr with
  | .bypass => scanReg s [false] bits
  | .idcode => scanReg s (bitList 32 idcode) bits
  | .other _ => if s.work.fuses.testFuseIntact then scanPins s bits else scanReg s [false] bits
  | .samplePreload => scanPins s bits
  | .extest => scanPins s bits
  | .extestPulse => scanPins s bits
  | .extestTrain => scanPins s bits

/-- JTAG_TAP_OPERATION. Test-Logic-Reset selects IDCODE. -/
def jtagOp (s : State) (op : JtagOp) : State :=
  match op with
  | .reset => { s with misc := { s.misc with jtagIr := .idcode, jtagDr := [] } }
  | .loadIr ir => { s with misc := { s.misc with jtagIr := ir } }
  | .scanDr bits => scanDr s bits

def execJtagTapOperation (op : JtagOp) (s : State) : Res := .next (jtagOp s op)

/-! ## SMBus and PMBus -/

/-- The bytes that the SMBus target answers to a read: the spec states none, so they are free values. -/
def freeBytes : Nat → Work → List Byte × Work
  | 0, w => ([], w)
  | n + 1, w =>
    let (v, w) := freeVal w
    let (rest, w) := freeBytes n w
    (v.setWidth 8 :: rest, w)

/-- SMBUS_TRANSACTION: a write leaves its bytes with the target, a read answers as many bytes as it asks for; the target is
Basecamp's, and does not answer while Basecamp is held in reset. -/
def smbusOp (s : State) (rd : Bool) (data : List Byte) : State :=
  if s.fw.dead then s
  else if rd then
    let (bs, w) := freeBytes data.length s.work
    { s with work := emit w (.smbus bs) }
  else { s with misc := { s.misc with smbus := data } }

def execSmbusTransaction (rd : Bool) (data : List Byte) (s : State) : Res := .next (smbusOp s rd data)

/-- PMBUS_ALERT: the alert is pending at Basecamp's controller. -/
def execPmbusAlert (s : State) : Res := .next { s with misc := { s.misc with pmbAlert := true } }

end Sys2Proof.Machine
end

