-- ==== Sys2Proof/Machine/Dispatch.lean ====
section
/-! DEFINITION. One arm per command: the meaning of each constructor of Instr. -/

namespace Sys2Proof.Machine

open Host

def exec (i : Instr) (s : State) : Host.Outcome State Fault Refusal :=
  match i with
  | .issueStore summit dw v rvc => Sys2Proof.Machine.execIssueStore summit dw v rvc s
  | .tmaskStore summit mask dw v rvc => Sys2Proof.Machine.execTmaskStore summit mask dw v rvc s
  | .packetArrival crag => Sys2Proof.Machine.execPacketArrival crag s
  | .creditReturn crag => Sys2Proof.Machine.execCreditReturn crag s
  | .sumLoad summit n rd rvc => Sys2Proof.Machine.execSumLoad summit n rd rvc s
  | .summaryContributionArrival crag => Sys2Proof.Machine.execSummaryContributionArrival crag s
  | .summitInstruction summit => Sys2Proof.Machine.execSummitInstruction summit s
  | .windowLoadStore summit va acc rvc => Sys2Proof.Machine.execWindowLoadStore summit va acc rvc s
  | .summitFence summit => Sys2Proof.Machine.execSummitFence summit s
  | .ebreak summit rvc => Sys2Proof.Machine.execEbreak summit rvc s
  | .dispatch crag => Sys2Proof.Machine.execDispatch crag s
  | .summary crag n => Sys2Proof.Machine.execSummary crag n s
  | .macroOpComplete crag n => Sys2Proof.Machine.execMacroOpComplete crag n s
  | .queueWaitEnd crag q => Sys2Proof.Machine.execQueueWaitEnd crag q s
  | .acknowledgement who => Sys2Proof.Machine.execAcknowledgement who s
  | .streamRd crag n => Sys2Proof.Machine.execStreamRd crag n s
  | .streamWr crag n => Sys2Proof.Machine.execStreamWr crag n s
  | .streamReadReturn crag n => Sys2Proof.Machine.execStreamReadReturn crag n s
  | .pageRequestResponse crag ch ok => Sys2Proof.Machine.execPageRequestResponse crag ch ok s
  | .priTimeout crag ch => Sys2Proof.Machine.execPriTimeout crag ch s
  | .streamMcast crag n => Sys2Proof.Machine.execStreamMcast crag n s
  | .mcastFetchStart group => Sys2Proof.Machine.execMcastFetchStart group s
  | .streamRegion crag n => Sys2Proof.Machine.execStreamRegion crag n s
  | .streamClose crag n => Sys2Proof.Machine.execStreamClose crag n s
  | .qdeadlock crag => Sys2Proof.Machine.execQdeadlock crag s
  | .late crag => Sys2Proof.Machine.execLate crag s
  | .mma crag n => Sys2Proof.Machine.execMma crag n s
  | .sring crag n => Sys2Proof.Machine.execSring crag n s
  | .sringArg crag n => Sys2Proof.Machine.execSringArg crag n s
  | .gmergePack crag n => Sys2Proof.Machine.execGmergePack crag n s
  | .gmergeUnpack crag n => Sys2Proof.Machine.execGmergeUnpack crag n s
  | .gmergePack24 crag n => Sys2Proof.Machine.execGmergePack24 crag n s
  | .smmaA crag n => Sys2Proof.Machine.execSmmaA crag n s
  | .smmaW crag n => Sys2Proof.Machine.execSmmaW crag n s
  | .smmaAw crag n => Sys2Proof.Machine.execSmmaAw crag n s
  | .smmaPrune crag n => Sys2Proof.Machine.execSmmaPrune crag n s
  | .vectorChainStart crag n => Sys2Proof.Machine.execVectorChainStart crag n s
  | .vopFlags crag n => Sys2Proof.Machine.execVopFlags crag n s
  | .gatherCsr crag n ext => Sys2Proof.Machine.execGatherCsr crag n ext s
  | .gatherCoo crag n ext => Sys2Proof.Machine.execGatherCoo crag n ext s
  | .gatherSeg crag n ext => Sys2Proof.Machine.execGatherSeg crag n ext s
  | .sampleU crag n ext => Sys2Proof.Machine.execSampleU crag n ext s
  | .sampleW crag n ext => Sys2Proof.Machine.execSampleW crag n ext s
  | .pool crag n ext => Sys2Proof.Machine.execPool crag n ext s
  | .poolPrefetch crag n => Sys2Proof.Machine.execPoolPrefetch crag n s
  | .eupdWrite crag n => Sys2Proof.Machine.execEupdWrite crag n s
  | .eupdAdd crag n => Sys2Proof.Machine.execEupdAdd crag n s
  | .eupdSgd crag n => Sys2Proof.Machine.execEupdSgd crag n s
  | .eupdAdagrad crag n => Sys2Proof.Machine.execEupdAdagrad crag n s
  | .eupdAdam crag n => Sys2Proof.Machine.execEupdAdam crag n s
  | .eupdMigrate crag n => Sys2Proof.Machine.execEupdMigrate crag n s
  | .updateUnitApply u => Sys2Proof.Machine.execUpdateUnitApply u s
  | .migrateClaimAck u row => Sys2Proof.Machine.execMigrateClaimAck u row s
  | .migrateCopyAck u row => Sys2Proof.Machine.execMigrateCopyAck u row s
  | .migrateSwitchAck u row => Sys2Proof.Machine.execMigrateSwitchAck u row s
  | .belayPost crag n => Sys2Proof.Machine.execBelayPost crag n s
  | .belayWait crag n => Sys2Proof.Machine.execBelayWait crag n s
  | .belayPostApply belay => Sys2Proof.Machine.execBelayPostApply belay s
  | .belaytmo crag n => Sys2Proof.Machine.execBelaytmo crag n s
  | .taskTake crag n => Sys2Proof.Machine.execTaskTake crag n s
  | .taskPut crag n => Sys2Proof.Machine.execTaskPut crag n s
  | .taskDone crag n => Sys2Proof.Machine.execTaskDone crag n s
  | .taskGrant taskSeq => Sys2Proof.Machine.execTaskGrant taskSeq s
  | .delayRelease taskSeq => Sys2Proof.Machine.execDelayRelease taskSeq s
  | .bivouacEnter crag => Sys2Proof.Machine.execBivouacEnter crag s
  | .markEpoch crag n => Sys2Proof.Machine.execMarkEpoch crag n s
  | .markDigest crag n => Sys2Proof.Machine.execMarkDigest crag n s
  | .cragReset bank => Sys2Proof.Machine.execCragReset bank s
  | .summitRun bank => Sys2Proof.Machine.execSummitRun bank s
  | .summitHalt bank => Sys2Proof.Machine.execSummitHalt bank s
  | .summitReset bank => Sys2Proof.Machine.execSummitReset bank s
  | .summitLoad bank => Sys2Proof.Machine.execSummitLoad bank s
  | .summitLoadDone summit => Sys2Proof.Machine.execSummitLoadDone summit s
  | .summitPartyWrite bank v => Sys2Proof.Machine.execSummitPartyWrite bank v s
  | .selectWrite bank sel v => Sys2Proof.Machine.execSelectWrite bank sel v s
  | .bar0LowHalfWrite bank off v => Sys2Proof.Machine.execBar0LowHalfWrite bank off v s
  | .registerWrite bank off width v => Sys2Proof.Machine.execRegisterWrite bank off width v s
  | .belayPostRegister bank v => Sys2Proof.Machine.execBelayPostRegister bank v s
  | .belaySet bank v => Sys2Proof.Machine.execBelaySet bank v s
  | .cacheRead pa cls ten bypass => Sys2Proof.Machine.execCacheRead pa cls ten bypass s
  | .cacheWrite pa cls ten bypass data poison => Sys2Proof.Machine.execCacheWrite pa cls ten bypass data poison s
  | .cacheFillDone slice line sector => Sys2Proof.Machine.execCacheFillDone slice line sector s
  | .clean bank byWay way => Sys2Proof.Machine.execClean bank byWay way s
  | .invalidate bank byWay way => Sys2Proof.Machine.execInvalidate bank byWay way s
  | .cleanInvalidate bank byWay way => Sys2Proof.Machine.execCleanInvalidate bank byWay way s
  | .zeroLine bank byWay way => Sys2Proof.Machine.execZeroLine bank byWay way s
  | .cmoDone slice => Sys2Proof.Machine.execCmoDone slice s
  | .wayenWrite bank v => Sys2Proof.Machine.execWayenWrite bank v s
  | .waypwrWrite bank v => Sys2Proof.Machine.execWaypwrWrite bank v s
  | .waySweepDone slice way => Sys2Proof.Machine.execWaySweepDone slice way s
  | .sliceEnable bank => Sys2Proof.Machine.execSliceEnable bank s
  | .sliceDisable bank force => Sys2Proof.Machine.execSliceDisable bank force s
  | .sliceSweepDone slice => Sys2Proof.Machine.execSliceSweepDone slice s
  | .bankSpare slice group pos => Sys2Proof.Machine.execBankSpare slice group pos s
  | .dramRead ch x err => Sys2Proof.Machine.execDramRead ch x err s
  | .rowRemapped ch => Sys2Proof.Machine.execRowRemapped ch s
  | .patrolScrub ch x err => Sys2Proof.Machine.execPatrolScrub ch x err s
  | .retrain bank => Sys2Proof.Machine.execRetrain bank s
  | .emergencyRetrain ch => Sys2Proof.Machine.execEmergencyRetrain ch s
  | .retrainDone ch ok => Sys2Proof.Machine.execRetrainDone ch ok s
  | .offline bank => Sys2Proof.Machine.execOffline bank s
  | .online bank => Sys2Proof.Machine.execOnline bank s
  | .ppr bank => Sys2Proof.Machine.execPpr bank s
  | .pprDone ch entry ok => Sys2Proof.Machine.execPprDone ch entry ok s
  | .mark bank rank dev => Sys2Proof.Machine.execMark bank rank dev s
  | .unmark bank rank => Sys2Proof.Machine.execUnmark bank rank s
  | .tgGo bank ctrl => Sys2Proof.Machine.execTgGo bank ctrl s
  | .tgDone ch flips => Sys2Proof.Machine.execTgDone ch flips s
  | .ridgeLaneFail lane => Sys2Proof.Machine.execRidgeLaneFail lane s
  | .ref1ppsEdge present offsetNs => Sys2Proof.Machine.execRef1ppsEdge present offsetNs s
  | .ptpSync master domain twoStep t1 t2 => Sys2Proof.Machine.execPtpSync master domain twoStep t1 t2 s
  | .ptpFollowUp master t1 => Sys2Proof.Machine.execPtpFollowUp master t1 s
  | .ptpDelayResp master t4 => Sys2Proof.Machine.execPtpDelayResp master t4 s
  | .ptpAnnounce domain m => Sys2Proof.Machine.execPtpAnnounce domain m s
  | .itSourceLost => Sys2Proof.Machine.execItSourceLost s
  | .itExpired => Sys2Proof.Machine.execItExpired s
  | .timeExchangeTimer => Sys2Proof.Machine.execTimeExchangeTimer s
  | .timePpsOut => Sys2Proof.Machine.execTimePpsOut s
  | .step bank => Sys2Proof.Machine.execStep bank s
  | .itrefsecondsWrite bank v => Sys2Proof.Machine.execItrefsecondsWrite bank v s
  | .itsourceWrite bank v => Sys2Proof.Machine.execItsourceWrite bank v s
  | .sysclkLoss => Sys2Proof.Machine.execSysclkLoss s
  | .sysclkReturn => Sys2Proof.Machine.execSysclkReturn s
  | .eventEntryWrite bank v => Sys2Proof.Machine.execEventEntryWrite bank v s
  | .eventFire entry => Sys2Proof.Machine.execEventFire entry s
  | .tenancyEnable bank => Sys2Proof.Machine.execTenancyEnable bank s
  | .tenancyDisable bank => Sys2Proof.Machine.execTenancyDisable bank s
  | .tenancyReset bank => Sys2Proof.Machine.execTenancyReset bank s
  | .xlateInval bank => Sys2Proof.Machine.execXlateInval bank s
  | .energyMeasure packageUj shares => Sys2Proof.Machine.execEnergyMeasure packageUj shares s
  | .powerLimitRequest k stretched => Sys2Proof.Machine.execPowerLimitRequest k stretched s
  | .mbGo bank => Sys2Proof.Machine.execMbGo bank s
  | .mgmtDatagram d => Sys2Proof.Machine.execMgmtDatagram d s
  | .commitDone ok => Sys2Proof.Machine.execCommitDone ok s
  | .probationEnd => Sys2Proof.Machine.execProbationEnd s
  | .cfgTripleDue => Sys2Proof.Machine.execCfgTripleDue s
  | .cfgDecisionDue => Sys2Proof.Machine.execCfgDecisionDue s
  | .faultClearValid bank => Sys2Proof.Machine.execFaultClearValid bank s
  | .faultClearFatal bank => Sys2Proof.Machine.execFaultClearFatal bank s
  | .fwTrialExpiry => Sys2Proof.Machine.execFwTrialExpiry s
  | .bar2Read off n => Sys2Proof.Machine.execBar2Read off n s
  | .bar2Write off data poisoned => Sys2Proof.Machine.execBar2Write off data poisoned s
  | .dbRing t v => Sys2Proof.Machine.execDbRing t v s
  | .hostReadCompletion crag n st data poisoned => Sys2Proof.Machine.execHostReadCompletion crag n st data poisoned s
  | .completionTimeout crag n => Sys2Proof.Machine.execCompletionTimeout crag n s
  | .atsInvalidation pasid page => Sys2Proof.Machine.execAtsInvalidation pasid page s
  | .pcieLinkDown => Sys2Proof.Machine.execPcieLinkDown s
  | .perstAssert => Sys2Proof.Machine.execPerstAssert s
  | .perstDeassert => Sys2Proof.Machine.execPerstDeassert s
  | .rstN => Sys2Proof.Machine.execRstN s
  | .write port f => Sys2Proof.Machine.execWrite port f s
  | .read port f => Sys2Proof.Machine.execRead port f s
  | .post port f => Sys2Proof.Machine.execPost port f s
  | .readResp port f => Sys2Proof.Machine.execReadResp port f s
  | .writeAck port f => Sys2Proof.Machine.execWriteAck port f s
  | .postAck port f => Sys2Proof.Machine.execPostAck port f s
  | .time port f => Sys2Proof.Machine.execTime port f s
  | .link port f => Sys2Proof.Machine.execLink port f s
  | .travTimeout tag => Sys2Proof.Machine.execTravTimeout tag s
  | .travLaneFail port lane => Sys2Proof.Machine.execTravLaneFail port lane s
  | .ropeLaneFail lane => Sys2Proof.Machine.execRopeLaneFail lane s
  | .ropeLinkUp mode seat dev => Sys2Proof.Machine.execRopeLinkUp mode seat dev s
  | .lease f => Sys2Proof.Machine.execLease f s
  | .leaseSend => Sys2Proof.Machine.execLeaseSend s
  | .leaseTimeout => Sys2Proof.Machine.execLeaseTimeout s
  | .witnessWaitExpiry => Sys2Proof.Machine.execWitnessWaitExpiry s
  | .cfgTriple f => Sys2Proof.Machine.execCfgTriple f s
  | .cfgDecision f => Sys2Proof.Machine.execCfgDecision f s
  | .cfgConfirmed f => Sys2Proof.Machine.execCfgConfirmed f s
  | .agree f => Sys2Proof.Machine.execAgree f s
  | .stopTen f => Sys2Proof.Machine.execStopTen f s
  | .selftest f => Sys2Proof.Machine.execSelftest f s
  | .selftestResultTimeout t => Sys2Proof.Machine.execSelftestResultTimeout t s
  | .resetTen f => Sys2Proof.Machine.execResetTen f s
  | .ctrlDetach f => Sys2Proof.Machine.execCtrlDetach f s
  | .digest f => Sys2Proof.Machine.execDigest f s
  | .fwdHostRegister f => Sys2Proof.Machine.execFwdHostRegister f s
  | .fwdBar2 f => Sys2Proof.Machine.execFwdBar2 f s
  | .fwdStreamData f => Sys2Proof.Machine.execFwdStreamData f s
  | .fwdOdFragment f => Sys2Proof.Machine.execFwdOdFragment f s
  | .fwdTraverseRequest f => Sys2Proof.Machine.execFwdTraverseRequest f s
  | .copy f => Sys2Proof.Machine.execCopy f s
  | .copyDone => Sys2Proof.Machine.execCopyDone s
  | .faultMessage detected => Sys2Proof.Machine.execFaultMessage detected s
  | .logRecordClose => Sys2Proof.Machine.execLogRecordClose s
  | .sentinelWatchdogMiss => Sys2Proof.Machine.execSentinelWatchdogMiss s
  | .cragSpared crag failedSpares => Sys2Proof.Machine.execCragSpared crag failedSpares s
  | .vddCoreDip => Sys2Proof.Machine.execVddCoreDip s
  | .dipRecovery us => Sys2Proof.Machine.execDipRecovery us s
  | .railWarnEnd monitor us => Sys2Proof.Machine.execRailWarnEnd monitor us s
  | .supplyFail monitor mv => Sys2Proof.Machine.execSupplyFail monitor mv s
  | .por => Sys2Proof.Machine.execPor s
  | .thermalRead readings => Sys2Proof.Machine.execThermalRead readings s
  | .tripHoldoffExpiry => Sys2Proof.Machine.execTripHoldoffExpiry s
  | .bringUp b => Sys2Proof.Machine.execBringUp b s
  | .retrainDue ch tempC => Sys2Proof.Machine.execRetrainDue ch tempC s
  | .itRegisterLowRead off => Sys2Proof.Machine.execItRegisterLowRead off s
  | .atsTranslationResponse crag ch a => Sys2Proof.Machine.execAtsTranslationResponse crag ch a s
  | .delayReqSend t3 => Sys2Proof.Machine.execDelayReqSend t3 s
  | .icmpv6Message m => Sys2Proof.Machine.execIcmpv6Message m s
  | .jtagTapOperation op => Sys2Proof.Machine.execJtagTapOperation op s
  | .smbusTransaction isRead data => Sys2Proof.Machine.execSmbusTransaction isRead data s
  | .pmbusAlert => Sys2Proof.Machine.execPmbusAlert s
  | .basecampReturn => Sys2Proof.Machine.execBasecampReturn s
  | .selfTestComplete t pass => Sys2Proof.Machine.execSelfTestComplete t pass s
  | .travLinkUp port => Sys2Proof.Machine.execTravLinkUp port s
  | .ropeRetrainDone => Sys2Proof.Machine.execRopeRetrainDone s
  | .pcieLinkUp width speed => Sys2Proof.Machine.execPcieLinkUp width speed s
  | .configurationRequest isWrite off data len => Sys2Proof.Machine.execConfigurationRequest isWrite off data len s

end Sys2Proof.Machine
end

