-- ==== Sys2Proof/Machine/Tick.lean ====
section
/-! DEFINITION. One tick of Installation Time, 100 ns, in which the counts that run with time advance: IT itself (R371, R380),
region timers and consumer waits (R100, R101), deadlock counts (R96), watchdogs (R283), Bivouac (R304), cycle and slice meters
(R401), stalls of Summits, and the resilver copy (R496). What follows from a count is a command of its own. -/

namespace Sys2Proof.Machine

open Host

/-- CCLK cycles of the tick that ends at IT n + 1, at k eighths of 900 MHz (R528). -/
def tickCycles (n k : Nat) : Nat := (n + 1) * 45 * k / 4 - n * 45 * k / 4

/-- A scheduled op of a unit waits for its data in the present cycle (R101, R274). -/
def consumerWaits (x : Crag) (u : Nat) : Bool :=
  x.ops.any fun o => decide (o.unit = u) && o.packets.any schedOf &&
    ((o.stage = .gathering && (stallQueue x o).isSome) ||
      (opcOf o.pkt = 0x11 && o.started && (stallQueue x o).isSome) ||
      (o.stage = .waiting && !o.head && opcOf o.pkt = 0x81) ||
      (!o.started && (earlier x o.n).any fun e => e.packets.any fun p => o.packets.any fun q =>
        overlap (wrBase p) (wrCnt p) (rdBase q) (rdCnt q)))

/-- The open region of a Crag after a tick: 90 nominal cycles. -/
def tickRegion (x : Crag) : Region :=
  let r := x.region
  if r.state ≠ 2 || x.fe.frozen then r
  else { r with timer := bumpSat r.timer 90
                waitAu := r.waitAu + (if consumerWaits x 0 then 90 else 0)
                waitEu := r.waitEu + (if consumerWaits x 1 then 90 else 0) }

/-- The deadlock count (R96): it holds while the tenancy is pre-empted. -/
def tickBlocked (w : Work) (c cyc : Nat) (x : Crag) : Nat :=
  if x.fe.frozen || !canRun w (tenOfCrag w c) then x.region.blocked
  else if unitBlocked w c 0 && unitBlocked w c 1 then x.region.blocked + cyc
  else 0

/-- A Crag after a tick of cyc CCLK cycles. -/
def tickCrag (w : Work) (cyc c : Nat) (x : Crag) : Crag :=
  let b := tickBlocked w c cyc x
  { x with region := { tickRegion x with blocked := b }
           idle := if !x.bivouac && !x.fe.frozen && bivCond x then x.idle + cyc else 0
           ac := if x.bivouac then { x.ac with bivCyc := bump x.ac.bivCyc cyc } else x.ac }

/-- A Summit after a tick: the cycles it is stalled; SUMMIT_STALL_CYC counts those on zero credit (Table 2.10). -/
def tickSummit (cyc : Nat) (m : Summit) : Summit :=
  match m.stall with
  | none => m
  | some (.issue ..) => { m with stallCyc := bump m.stallCyc cyc, mcycle := bump m.mcycle cyc }
  | some _ => { m with mcycle := bump m.mcycle cyc }

/-- The watchdogs of a Belay's waiters (R283). -/
def tickBelay (w : Work) (b : Belay) : Belay :=
  { b with waiters := b.waiters.map fun y =>
      if canRun w (tenOfCrag w y.crag) && !(getCrag w y.crag).fe.frozen then { y with elapsed := y.elapsed + 1 } else y }

/-- Cycles of a tick that a tenancy's Crags spend active, and in Bivouac. -/
def tickMeters (w : Work) (cyc t : Nat) : Nat × Nat :=
  let mine := w.crags.filter fun e => tenOfCrag w e.1 = t
  let active := mine.filter fun e => !e.2.bivouac && decide (e.2.ops ≠ [])
  let biv := mine.filter fun e => e.2.bivouac
  (if hasSlice w t then cyc * active.length else 0, cyc * biv.length)

/-- A tenancy after a tick. -/
def tickTen (w : Work) (cyc t : Nat) : Ten :=
  let x := getTen w t
  let (a, b) := tickMeters w cyc t
  { x with activeCyc := bump x.activeCyc a, bivCyc := bump x.bivCyc b, slice := bump x.slice (b2n (hasSlice w t)) }

/-- A channel after a tick: its write queue has gone to DRAM (R348), and a rank row that failed is held (R362). -/
def tickCh (m : MemCh) : MemCh := { m with wq := [], rowsHeld := m.rowsHeld.map fun r => { r with on := true } }

/-- The data plane after a tick of cyc CCLK cycles. -/
def tickWork (w : Work) (cyc : Nat) : Work :=
  let v := { w with crags := Tab.mapV cragD (tickCrag w cyc) w.crags
                    summits := Tab.mapV summitD (fun _ m => tickSummit cyc m) w.summits
                    chs := Tab.mapV chD (fun _ m => tickCh m) w.chs
                    belays := Tab.mapV belayD (fun _ b => tickBelay w b) w.belays
                    now := w.now + 1 }
  (List.range 16).foldl (fun v t => setTen v t (tickTen w cyc t)) v

/-- What goes on as soon as it can: maintenance operations visit the lines they have left (R324), task entries leave retired pages (R366),
puts and EUPDs that wait are tried again (R259, R292), and invalidations complete (R449). -/
def upkeep (w : Work) : Work := invalDone (retryPuts (unlessHeld moveEntries ((List.range 4).foldl cmoPass w)))

/-- The IT unit after a tick: slewed by 1 ps at most, its times in HOLDOVER and LOCKED counted (R379, R380), and those since the source was
heard (R375); a PTP master is given up after three Announce intervals of 2 s (log entry 33). -/
def tickIt (i : ItUnit) : ItUnit :=
  { i with slew := if 0 < i.slew then i.slew - 1 else if i.slew < 0 then i.slew + 1 else 0
           edgeAge := i.edgeAge + 1, syncAge := i.syncAge + 1, exchAge := i.exchAge + 1, announceAge := i.announceAge + 1
           ptpMaster := if 60000000 ≤ i.announceAge + 1 then none else i.ptpMaster
           holdFor := if i.state = .holdover then i.holdFor + 1 else i.holdFor
           lockedFor := if i.state = .locked then i.lockedFor + 1 else i.lockedFor }

/-- Power state after a tick with so many CCLK cycles suppressed: a trip's hold-off runs (R531). -/
def tickPwr (p : Power) (off : Nat) : Power :=
  { p with limitCyc := p.limitCyc + off, tripLeft := p.tripLeft.map (· - 1) }

/-- One tick. Without SYSCLK nothing of it happens (R535). -/
def tick (s : State) : State :=
  if !s.it.sysclk then s
  else
    let n := s.work.now.toNat
    let cyc := tickCycles n (clockRate s.pwr)
    copyTick { s with work := upkeep (tickWork s.work cyc), it := tickIt s.it, pwr := tickPwr s.pwr (tickCycles n 8 - cyc) }

end Sys2Proof.Machine
end

