-- ==== Sys2Proof/Machine/Step.lean ====
section
/-! DEFINITION. The step: the command at the front of the queue, or one tick of Installation Time when the queue is empty, after which the
commands that wait inside the device are tried again. -/

namespace Sys2Proof.Machine

/-- A command that has waited happens, or waits on behind those that were before it. -/
def redo (s : State) (x : Waiting) : State :=
  match exec x.cmd { s with work := { s.work with again := true } } with
  | .next t => { t with work := { t.work with again := false } }
  | _ => s

/-- Every command that waits is tried again, in the order of arrival (R358; log entry 16). -/
def redoAll (s : State) : State := s.work.waiting.foldl redo { s with work := { s.work with waiting := [] } }

/-- What a step does when no command is pending: a tick, then the commands that wait. Without SYSCLK nothing happens (R535). -/
def idle (s : State) : State := if s.it.sysclk then redoAll (tick s) else s

/-- With an empty queue a step is one tick of IT (log entry 3); else it is the first command on the state that holds the rest. -/
def step (s : State) : Host.Outcome State Fault Refusal :=
  match s.pending with
  | [] => .next (idle s)
  | c :: rest => exec c { s with pending := rest }

/-- The command that a word spells put at the front of the queue; unchanged where it spells none. -/
def State.withFetchWord (s : State) (nbits w : Nat) : State :=
  match decodeTableWord nbits w with
  | some c => { s with pending := c :: s.pending }
  | none => s

end Sys2Proof.Machine
end

