-- ==== Sys2Proof/Safety.lean ====
section
/-! DEFINITION. What the statements mean by a consistent state, by a step that goes on, and by a change that is confined to
one unit. -/

namespace Sys2Proof.Machine

/-- The collector's records agree with its status bits (R508, R509, Table 17.4): FC_FIRST holds a message exactly when VALID is
set, OVERFLOW and MERGED stand only beside it, MERGED does not exceed 255, and FC_FATAL holds a message exactly when FATAL_VALID
is set. -/
def Collector.ok (c : Collector) : Prop :=
  (c.valid = c.first.isSome) ∧ (c.first = none → c.overflow = false ∧ c.merged = 0) ∧ c.merged ≤ 255 ∧
    (c.fatalValid = c.fatal.isSome)

/-- The machine's collector is consistent. -/
def State.collectorOk (s : State) : Prop := Collector.ok s.fc

/-- A step that neither stops nor refuses. -/
def State.goesOn (s : State) : Prop := ∃ t, step s = .next t

/-- Two states that differ in the data plane only. -/
def State.sameBut (s t : State) : Prop := t = { s with work := t.work }

/-- Two data planes that differ in one Summit only. -/
def Work.onlySummit (n : Nat) (w v : Work) : Prop :=
  v = { w with summits := v.summits } ∧ ∀ k, k ≠ n → getSummit v k = getSummit w k

/-- Two data planes that differ in one Crag only. -/
def Work.onlyCrag (c : Nat) (w v : Work) : Prop :=
  v = { w with crags := v.crags } ∧ ∀ k, k ≠ c → getCrag v k = getCrag w k

/-- Two data planes that differ in one memory channel only. -/
def Work.onlyCh (c : Nat) (w v : Work) : Prop :=
  v = { w with chs := v.chs } ∧ ∀ k, k ≠ c → getCh v k = getCh w k

/-- Two data planes that differ in one cache slice only. -/
def Work.onlySlice (d : Nat) (w v : Work) : Prop :=
  v = { w with slices := v.slices } ∧ ∀ k, k ≠ d → getSlice v k = getSlice w k

/-- Two data planes that differ in one port only. -/
def Work.onlyPort (p : Nat) (w v : Work) : Prop :=
  v = { w with ports := v.ports } ∧ ∀ k, k ≠ p → getPort v k = getPort w k

/-- A bank whose writes of the control registers the device applies itself and at once: any but the host's, and the host's too unless
the function is in D3hot (R442), the device is of a Duplex pair (R479, R480), or an earlier TLP of the host waits (Table 15.1). What a
TLP of the host with EP set does beside is stated apart (R448). -/
def State.bankOpen (s : State) (b : Bank) : Prop :=
  b ≠ .hostEp ∧ (b = .host → s.host.d3hot = false ∧ isStandby s.work = false ∧ s.work.fwding = false ∧
    behind s.work (.registerWrite .host 0 0 0) = false)

/-- Basecamp carries out a bank's object writes on this device alone: it answers (R522, R542), the bank is no doorbell page, whose
agent has fewer rights (R428), its agent reaches the device (R535, R538), the device is of no Duplex pair (R481), and no access that its data
plane waits with is under way. -/
def State.objectsOpen (s : State) (b : Bank) : Prop :=
  agentReach s (bankAgent b) = true ∧ (∀ idx, odBusy s (bankAgent b) idx = false) ∧ (∀ t, b ≠ .doorbell t) ∧ isStandby s.work = false ∧ s.work.fwding = false ∧
    s.work.hold = none

/-- A frame of a command is what a port's link takes next: the link is up, the CRC-32C is right and the LSEQ the one expected (R456),
and no earlier command of its virtual channel waits. -/
def State.hears (s : State) (cmd : Instr) (p : Nat) (f : Frame) : Prop :=
  s.work.again = false ∧ s.work.hold = none ∧ behind s.work cmd = false ∧ portUp s.work p = true ∧ f.crc = frameCrc f ∧
    f.lseq = (getPort s.work p).rxSeq

/-- A frame of none of a port's reserved types, with a LEN that its type allows (R458, R459, R477). -/
def plainFrame (p : Nat) (f : Frame) : Prop := f.typ ≠ 0 ∧ f.typ < (if p = 8 then 14 else 9) ∧ f.len < 3

/-- The data plane once a frame has crossed the link of a port. -/
def Work.took (w : Work) (p : Nat) (f : Frame) : Work := (linkTake w p f).1

/-- A block that lies in the cache and may be used at once: no fill of its line is in flight, no request to it waits, and its slice is in no
disable sweep. -/
def Work.inCache (w : Work) (a way : Nat) : Prop :=
  paStatus w a = .ok ∧ hitWay (getSlice w (sliceOf a)) a = some way ∧ fillOf (getSlice w (sliceOf a)) a = none ∧
    lineWaits w a = false ∧ (getSlice w (sliceOf a)).sweep = false

/-- No task is in service, and none of a tenancy is queued or delayed. -/
def Work.noTasks (w : Work) (t : Nat) : Prop :=
  (∀ e ∈ w.crags, e.2.slots = []) ∧ ∀ q ∈ w.sched.ready ++ w.sched.delay, q.ten ≠ t

/-- Device memory is in its canonical form. -/
def Work.memOk (w : Work) : Bool := Tab.wf (dramD w.lost w.lostRows) w.dram

/-- The commands that start an engine's op, with the opcodes that each starts. -/
def engineRows (c n : Nat) (ext : Mem) : List (List Nat × Instr) :=
  [([0x20], .mma c n), ([0x30], .sring c n), ([0x31], .sringArg c n), ([0x38], .gmergePack c n), ([0x39], .gmergeUnpack c n),
   ([0x3A], .gmergePack24 c n), ([0x28], .smmaA c n), ([0x29], .smmaW c n), ([0x2A], .smmaAw c n), ([0x2C], .smmaPrune c n),
   ([0x40, 0x50, 0x58], .vectorChainStart c n), ([0x60], .gatherCsr c n ext), ([0x61], .gatherCoo c n ext), ([0x62], .gatherSeg c n ext),
   ([0x68], .sampleU c n ext), ([0x69], .sampleW c n ext), ([0x70], .pool c n ext), ([0x71], .poolPrefetch c n), ([0x78], .eupdWrite c n),
   ([0x79], .eupdAdd c n), ([0x7A], .eupdSgd c n), ([0x7B], .eupdAdagrad c n), ([0x7C], .eupdAdam c n), ([0x7E], .eupdMigrate c n)]

end Sys2Proof.Machine
end

