-- ==== Sys2Proof/Certificates/Slice0/Obligations.lean ====
section
/-! DEFINITION. The statements about the model. Each docstring says which rule of spec/ its statement formalises, or which log
entry it rests on. -/

open Sys2Proof Sys2Proof.Machine Host

/-! ## The queue of commands -/

/-- A step takes the command at the front of the queue and runs it on the state that holds the rest of the queue. -/
def Obligations.StepRunsTheFrontCommand : Prop :=
  ∀ (s : State) (c : Instr) (rest : List Instr), s.pending = c :: rest → step s = exec c { s with pending := rest }

/-- With nothing queued a step is one tick of IT (log entry 3): IT counts one tick of 100 ns (R371), saturating nowhere, and the device
stands still while SYSCLK is lost (R535). The queue stays empty. With no op, no queued task, no line that a maintenance operation has
still to visit and no command that waits, nothing else happens in the tick than its counts, and device memory stays. -/
def Obligations.IdleStepCountsOneTick : Prop :=
  ∀ s : State, s.pending = [] → ∃ t, step s = .next t ∧ t.pending = [] ∧ (s.it.sysclk = false → t = s) ∧
    (∀ n, (tickWork s.work n).now = s.work.now + 1) ∧
    (s.it.sysclk = true → s.work.waiting = [] → s.work.sched.ready = [] → s.work.sched.delay = [] →
      (∀ e ∈ s.work.crags, e.2.ops = []) → (∀ d, d < 4 → (getSlice s.work d).cmoPend = []) → t = tick s ∧ t.work.now = s.work.now + 1 ∧ t.work.dram = s.work.dram ∧
        t.work.waiting = [])

/-- Every well-formed command is carried out, in every state, and leaves the queue as it is. A command that names a unit the block does
not have is refused by name; no command is refused otherwise, and none faults. -/
def Obligations.CommandsCompleteUnlessTheyNameMissingUnits : Prop :=
  (∀ (c : Instr) (s : State), c.wf = true → ∃ t, exec c s = .next t ∧ t.pending = s.pending) ∧
  (∀ (c : Instr) (s : State), c.wf = false → ∃ what n, exec c s = .refused (.noSuchUnit what n))

/-! ## The Summit and its packets -/

/-- Stores to ISSUE doublewords 0 to 2 and to TMASK1 to TMASK7 write that register; TMASK0 ignores stores (R42, R43, Table 2.2).
The instruction completes: the program counter passes it and minstret counts it. Nothing but the Summit changes. -/
def Obligations.SummitRegisterStores : Prop :=
  ∀ (s : State) (n : Nat) (v : W64) (rvc : Bool), n < 16 → s.work.hold = none → sumReady s.work n = true →
    (∀ dw, dw < 3 → ∃ t, exec (.issueStore n dw v rvc) s = .next t ∧ State.sameBut s t ∧ Work.onlySummit n s.work t.work ∧
      Tab.get (bvD 64) (getSummit t.work n).issue dw = v ∧
      (∀ k, k ≠ dw → Tab.get (bvD 64) (getSummit t.work n).issue k = Tab.get (bvD 64) (getSummit s.work n).issue k) ∧
      (getSummit t.work n).pc = BitVec.ofNat 64 ((getSummit s.work n).pc.toNat + ilen rvc) ∧
      (getSummit t.work n).minstret = bump (getSummit s.work n).minstret 1) ∧
    (∀ mask dw, mask < 8 → dw < 4 → ∃ t, exec (.tmaskStore n mask dw v rvc) s = .next t ∧ State.sameBut s t ∧
      Work.onlySummit n s.work t.work ∧
      Tab.get (bvD 64) (getSummit t.work n).tmask (4 * mask + dw) =
        (if mask = 0 then Tab.get (bvD 64) (getSummit s.work n).tmask dw else v) ∧
      (∀ k, k ≠ 4 * mask + dw →
        Tab.get (bvD 64) (getSummit t.work n).tmask k = Tab.get (bvD 64) (getSummit s.work n).tmask k) ∧
      (getSummit t.work n).pc = BitVec.ofNat 64 ((getSummit s.work n).pc.toNat + ilen rvc) ∧
      (getSummit t.work n).xs = (getSummit s.work n).xs)

/-- A store to ISSUE doubleword 3 with every credit at hand sends the packet to every Crag of the party and takes one credit for
each (R42, R43, R45): the copy of each Crag carries that Crag's bit of the target mask as it stands. Without a credit it stalls:
no packet leaves and the program counter stays. -/
def Obligations.IssueSendsOnePacketPerCrag : Prop :=
  ∀ (s : State) (n : Nat) (v : W64) (rvc : Bool), n < 16 → s.work.hold = none → sumReady s.work n = true →
    let m := getSummit s.work n
    let p := issuePacket { m with issue := Tab.set (bvD 64) m.issue 3 v }
    (haveCredit s.work n = true → ∃ t, exec (.issueStore n 3 v rvc) s = .next t ∧ State.sameBut s t ∧
      (∀ c ∈ partyCrags s.work n, ∃ f : Flight,
        (getCrag t.work c).fe.flight = (getCrag s.work c).fe.flight ++ [f] ∧ f.pkt = p ∧ f.discard = false ∧
          f.selected = maskBit m (tselOf p) c ∧
          Tab.get creditD (getSummit t.work n).credits c + 1 = Tab.get creditD m.credits c) ∧
      (∀ c, c ∉ partyCrags s.work n → getCrag t.work c = getCrag s.work c) ∧
      (∀ k, k ≠ n → getSummit t.work k = getSummit s.work k) ∧
      (getSummit t.work n).issued = bump m.issued 1 ∧
      (getSummit t.work n).pc = BitVec.ofNat 64 (m.pc.toNat + ilen rvc)) ∧
    (haveCredit s.work n = false → ∃ t, exec (.issueStore n 3 v rvc) s = .next t ∧ State.sameBut s t ∧
      Work.onlySummit n s.work t.work ∧ (getSummit t.work n).stall = some (.issue p (ilen rvc)) ∧
      (getSummit t.work n).pc = m.pc)

/-- A load of SUMn whose latest SUMMARY has its result gives that result, unless a poisoned contribution made it (R67, R110). While
it has none the load stalls. -/
def Obligations.SumLoadReadsTheResult : Prop :=
  ∀ (s : State) (n k rd : Nat) (rvc : Bool), n < 16 → k < 16 → 0 < rd → s.work.hold = none → sumReady s.work n = true →
    let m := getSummit s.work n
    (sumReadable m k = true → Tab.get falseD m.sumPois k = false → ∃ t, exec (.sumLoad n k rd rvc) s = .next t ∧
      State.sameBut s t ∧ Work.onlySummit n s.work t.work ∧
      Tab.get (bvD 64) (getSummit t.work n).xs rd = Tab.get (bvD 64) m.sums k ∧
      (∀ r, r ≠ rd → Tab.get (bvD 64) (getSummit t.work n).xs r = Tab.get (bvD 64) m.xs r) ∧
      (getSummit t.work n).pc = BitVec.ofNat 64 (m.pc.toNat + ilen rvc)) ∧
    (sumReadable m k = false → ∃ t, exec (.sumLoad n k rd rvc) s = .next t ∧ State.sameBut s t ∧
      Work.onlySummit n s.work t.work ∧ (getSummit t.work n).stall = some (.sum k rd (ilen rvc)) ∧
      (getSummit t.work n).xs = m.xs ∧ (getSummit t.work n).pc = m.pc)

/-- FENCE completes when no window store is unacknowledged, else it stalls (R47); EBREAK puts the Summit into HALTED without a
fault, with the program counter past it (R46); the ADD instruction writes the sum of its operands, and x0 keeps zero (R41, log
entry 23). -/
def Obligations.SummitFenceEbreakAdd : Prop :=
  ∀ (s : State) (n : Nat), n < 16 → s.work.hold = none → sumReady s.work n = true →
    let m := getSummit s.work n
    (∃ t, exec (.summitFence n) s = .next t ∧ State.sameBut s t ∧ Work.onlySummit n s.work t.work ∧
      (if m.wacks = 0 then (getSummit t.work n).pc = BitVec.ofNat 64 (m.pc.toNat + 4)
       else (getSummit t.work n).stall = some (.fence 4) ∧ (getSummit t.work n).pc = m.pc)) ∧
    (∀ rvc, ∃ t, exec (.ebreak n rvc) s = .next t ∧ State.sameBut s t ∧ Work.onlySummit n s.work t.work ∧
      (getSummit t.work n).state = .halted ∧ (getSummit t.work n).brk = true ∧
      (getSummit t.work n).pc = BitVec.ofNat 64 (m.pc.toNat + ilen rvc)) ∧
    (∀ rd rs1 rs2, rd < 32 → rs1 < 32 → rs2 < 32 → m.pc.toNat + 4 ≤ 0x10000 →
      leNat (Mem.read m.imem m.pc.toNat 4) = 0x33 + rd * 2 ^ 7 + rs1 * 2 ^ 15 + rs2 * 2 ^ 20 →
      ∃ t, exec (.summitInstruction n) s = .next t ∧ State.sameBut s t ∧ Work.onlySummit n s.work t.work ∧
        (∀ r, r < 32 → getX (getSummit t.work n) r =
          if r = rd ∧ rd ≠ 0 then (getX m rs1 + getX m rs2) % 2 ^ 64 else getX m r) ∧
        (getSummit t.work n).pc = BitVec.ofNat 64 (m.pc.toNat + 4))

/-- A window access under the party's tenancy (R47): a load whose bytes translate and are not poisoned gives them, extended as the
load says; a store that translates counts one unacknowledged write. The instruction completes. -/
def Obligations.WindowAccessCompletes : Prop :=
  ∀ (s : State) (n : Nat) (va : W64) (rvc : Bool), n < 16 → s.work.hold = none → sumReady s.work n = true →
    let q := req 0 (tenOfSpur s.work n)
    (∀ width signed rd w bs, va.toNat + width ≤ 2 ^ 48 → vRead s.work (.summit n) q va.toNat width = (w, bs, false, none) →
      w.hold = none → ∃ t, exec (.windowLoadStore n va (.load width signed rd) rvc) s = .next t ∧ State.sameBut s t ∧
        Work.onlySummit n w t.work ∧
        getX (getSummit t.work n) rd = (if rd = 0 then 0 else loadValue bs signed % 2 ^ 64) ∧
        (getSummit t.work n).pc = BitVec.ofNat 64 ((getSummit w n).pc.toNat + ilen rvc)) ∧
    (∀ width (v : W64) w, va.toNat + width ≤ 2 ^ 48 →
      vWrite s.work (.summit n) q va.toNat (natLe width v.toNat) false = (w, none) → w.hold = none →
      ∃ t, exec (.windowLoadStore n va (.store width v) rvc) s = .next t ∧ State.sameBut s t ∧ Work.onlySummit n w t.work ∧
        (getSummit t.work n).wacks = (getSummit w n).wacks + 1 ∧ (getSummit t.work n).xs = (getSummit w n).xs ∧
        (getSummit t.work n).pc = BitVec.ofNat 64 ((getSummit w n).pc.toNat + ilen rvc))

/-- Packets and credits travel (R44, R45): the first packet in flight to a Crag enters its FIFO behind the others, and a returned
credit is taken from the Crag's returns and counted for its leader, 64 at most. -/
def Obligations.PacketsArriveAndCreditsReturn : Prop :=
  ∀ (s : State) (c : Nat), c < 256 → s.work.hold = none →
    let x := getCrag s.work c
    (∀ f rest, x.fe.flight = f :: rest → f.discard = false → x.fe.skip = 0 →
      ∃ t, exec (.packetArrival c) s = .next t ∧ State.sameBut s t ∧ Work.onlyCrag c s.work t.work ∧
        (getCrag t.work c).fe.flight = rest ∧
        (getCrag t.work c).fe.fifo = x.fe.fifo ++ [{ pkt := f.pkt, selected := f.selected, mcSet := f.mcSet, tag := f.tag }] ∧
        (getCrag t.work c).ops = x.ops ∧ (getCrag t.work c).ledge = x.ledge) ∧
    (∀ k, x.credits = k + 1 → (∀ p l, (getSummit s.work (leaderOfCrag s.work c)).stall ≠ some (.issue p l)) →
      let n := leaderOfCrag s.work c
      ∃ t, exec (.creditReturn c) s = .next t ∧ State.sameBut s t ∧ (getCrag t.work c).credits = k ∧
        Tab.get creditD (getSummit t.work n).credits c = min 64 (Tab.get creditD (getSummit s.work n).credits c + 1) ∧
        (∀ j, j ≠ c → getCrag t.work j = getCrag s.work j ∧
          Tab.get creditD (getSummit t.work n).credits j = Tab.get creditD (getSummit s.work n).credits j) ∧
        (∀ m, m ≠ n → getSummit t.work m = getSummit s.work m))

/-- A summary contribution (R66, R67): the Crag's oldest contribution joins its reduction. Until every Crag of the party has contributed,
SUMn stays as it is; with the last one it takes the reduced value and its poison, the result becomes readable when its SUMMARY is
the most recent one sent to SUMn, and a Summit that does not wait for SUMn goes on as it was. How one SUMMARY is told from another is
log entry 124's. -/
def Obligations.LastContributionGivesTheSum : Prop :=
  ∀ (s : State) (c : Nat) (k : Contrib) (rest : List Contrib), c < 256 → s.work.hold = none → (getCrag s.work c).contrib = k :: rest →
    let n := leaderOfCrag s.work c
    let m := getSummit s.work n
    let r := redWith m k c
    m.stall = none → k.tag.1 = n → Tab.get zeroD m.sumDone k.sreg ≤ k.tag.2 →
    ∃ t, exec (.summaryContributionArrival c) s = .next t ∧ State.sameBut s t ∧ (getCrag t.work c).contrib = rest ∧
      (∀ j, j ≠ n → getSummit t.work j = getSummit s.work j) ∧ (∀ j, j ≠ c → getCrag t.work j = getCrag s.work j) ∧
      (((partyCrags s.work n).all fun d => r.got.any fun g => decide (g.1 = d)) = true →
        Tab.get (bvD 64) (getSummit t.work n).sums r.sreg = reduceSum r.kind r.signed (r.got.filterMap fun g => g.2.1) ∧
        Tab.get falseD (getSummit t.work n).sumPois r.sreg = r.got.any (fun g => g.2.2) ∧
        Tab.get zeroD (getSummit t.work n).sumDone r.sreg = r.num ∧
        (Tab.get zeroD m.sumSent r.sreg = r.num → sumReadable (getSummit t.work n) r.sreg = true) ∧
        (∀ j, j ≠ r.sreg → Tab.get (bvD 64) (getSummit t.work n).sums j = Tab.get (bvD 64) m.sums j)) ∧
      (((partyCrags s.work n).all fun d => r.got.any fun g => decide (g.1 = d)) = false →
        getSummit t.work n = { m with reds := m.reds.filter (fun q => !k.of q) ++ [r] })

/-! ## The front end -/

/-- DISPATCH takes the packet at the head of the FIFO (R36). A NOP has no effect but its place in the FIFO (R59): ops, counts,
comparators and active loops' counters stay. A packet found illegal performs nothing and raises ILLEGAL_OP with its opcode and SEQ
(R51). -/
def Obligations.DispatchOfNopAndIllegalPackets : Prop :=
  ∀ (s : State) (c : Nat) (f : FPkt), c < 256 → s.work.hold = none → feReady s.work c = true →
    let x := getCrag s.work c
    x.fe.fifo[x.fe.rp]? = some f →
    (legal s.work c x f (shifted x f.pkt) = true → opcOf f.pkt = 0 →
      ∃ t fe', exec (.dispatch c) s = .next t ∧ State.sameBut s t ∧ Work.onlyCrag c s.work t.work ∧
        getCrag t.work c = { x with fe := fe', credits := (getCrag t.work c).credits } ∧
        fe'.counts = x.fe.counts ∧ fe'.cmps = x.fe.cmps ∧ fe'.flight = x.fe.flight ∧ fe'.nextN = x.fe.nextN ∧
        fe'.seqDisp = BitVec.ofNat 8 (seqOf f.pkt) ∧ (∀ l ∈ fe'.loops, ∃ l' ∈ x.fe.loops, l.ctr = l'.ctr ∧ l.n = l'.n)) ∧
    (legal s.work c x f (shifted x f.pkt) = false →
      ∃ t, exec (.dispatch c) s = .next t ∧ State.sameBut s t ∧
        t.work.faultQ = s.work.faultQ ++ [faultMsg s.work.now (srcCrag s.work c) 0x03 (tenOfCrag s.work c)
          (opcOf f.pkt * 256 + seqOf f.pkt)] ∧
        (getCrag t.work c).fe.fifo = x.fe.fifo ∧ (getCrag t.work c).fe.rp = x.fe.rp ∧ (getCrag t.work c).ops = x.ops ∧
        (c ∈ partyCrags s.work (leaderOfCrag s.work c) → (getCrag t.work c).fe.frozen = true))

/-- TALLY.SET writes the count register of its counter and nothing else: other counts, comparators and the latched count of every
running loop stay. The next entry to a loop on the counter latches the new value, and count registers reset to zero (R60). -/
def Obligations.TallySetWritesOneCount : Prop :=
  (∀ (s : State) (c : Nat) (f : FPkt), c < 256 → s.work.hold = none → feReady s.work c = true →
    let x := getCrag s.work c
    let ctr := fld f.pkt 128 3
    x.fe.fifo[x.fe.rp]? = some f → legal s.work c x f (shifted x f.pkt) = true →
    (opcOf f.pkt = 1 → ∃ t fe', exec (.dispatch c) s = .next t ∧ State.sameBut s t ∧ Work.onlyCrag c s.work t.work ∧
      getCrag t.work c = { x with fe := fe', credits := (getCrag t.work c).credits } ∧
      Tab.get (bvD 32) fe'.counts ctr = BitVec.ofNat 32 (fld f.pkt 160 32) ∧
      (∀ k, k ≠ ctr → Tab.get (bvD 32) fe'.counts k = Tab.get (bvD 32) x.fe.counts k) ∧ fe'.cmps = x.fe.cmps ∧
      (∀ l ∈ fe'.loops, ∃ l' ∈ x.fe.loops, l.ctr = l'.ctr ∧ l.n = l'.n)) ∧
    (opcOf f.pkt = 2 → Tab.get (bvD 32) x.fe.counts ctr ≠ 0 →
      ∃ t, exec (.dispatch c) s = .next t ∧ ∃ l ∈ (getCrag t.work c).fe.loops, l.ctr = ctr ∧
        l.n = Tab.get (bvD 32) x.fe.counts ctr)) ∧
  (∀ c k, Tab.get (bvD 32) (getCrag State.reset.work c).fe.counts k = 0)

/-- A legal packet of a unit that is selected, with its predicate true and room in the issue buffer, passes to its unit behind the ops
already there (R36, R53, R55); while the issue buffer is full nothing is dispatched. One that is not selected passes as a NOP, with room
or without (log entry 120). -/
def Obligations.DispatchPassesThePacketOn : Prop :=
  ∀ (s : State) (c : Nat) (f : FPkt), c < 256 → s.work.hold = none → feReady s.work c = true →
    let x := getCrag s.work c
    x.fe.fifo[x.fe.rp]? = some f → legal s.work c x f (shifted x f.pkt) = true → isFrontEnd (opcOf f.pkt) = false →
    (bufferFull x f = true → exec (.dispatch c) s = .next s) ∧
    (bufferFull x f = false → isChainOp f.pkt = false → opcOf f.pkt ≠ 8 → f.selected = true → predTrue x f.pkt = true →
      ∃ t o, exec (.dispatch c) s = .next t ∧ State.sameBut s t ∧ Work.onlyCrag c s.work t.work ∧
        (getCrag t.work c).ops = x.ops ++ [o] ∧ o.pkt = shifted x f.pkt ∧ o.n = x.fe.nextN ∧ o.unit = unitOf (shifted x f.pkt) ∧
        o.stage = .dispatched ∧ (getCrag t.work c).fe.nextN = x.fe.nextN + 1 ∧
        (getCrag t.work c).fe.seqDisp = BitVec.ofNat 8 (seqOf f.pkt)) ∧
    (isChainOp f.pkt = false → opcOf f.pkt ≠ 8 → f.selected = false →
      ∃ t, exec (.dispatch c) s = .next t ∧ State.sameBut s t ∧ Work.onlyCrag c s.work t.work ∧
        (getCrag t.work c).ops = x.ops ∧ (getCrag t.work c).contrib = x.contrib)

/-! ## Macro-ops in general -/

/-- An op that has done everything completes (R56): it leaves the Crag's ops, and with it every region and queue end it held; its
count stands for its unit, and the flags it raised are set (R140). SUMMARY sends one contribution with the value its SSRC names, once no earlier op of its unit is left
(R65). -/
def Obligations.OpsCompleteAndSummariesContribute : Prop :=
  ∀ (s : State) (c n : Nat) (o : Op), c < 256 → s.work.hold = none →
    let x := getCrag s.work c
    findOp x n = some o →
    (x.fe.frozen = false → o.stage = .done → o.posts = false → opcOf o.pkt ≠ 0x1D → opcOf o.pkt ≠ 8 →
      ∃ t, exec (.macroOpComplete c n) s = .next t ∧ State.sameBut s t ∧ Work.onlyCrag c s.work t.work ∧
        (getCrag t.work c).ops = x.ops.filter (fun p => p.n ≠ n) ∧
        (getCrag t.work c).cntAu = (if o.unit = 0 then o.count else x.cntAu) ∧
        (getCrag t.work c).cntEu = (if o.unit = 0 then x.cntEu else o.count) ∧
        (getCrag t.work c).ex.fflags = x.ex.fflags ||| o.ffl ∧ (getCrag t.work c).ex.vflags = x.ex.vflags ||| o.vfl ∧
        (getCrag t.work c).ledge = x.ledge ∧ (getCrag t.work c).queues = x.queues) ∧
    (opcOf o.pkt = 8 → startable s.work c o = true → unitDrained x o = true → o.pred = true →
      ∃ t, exec (.summary c n) s = .next t ∧ State.sameBut s t ∧ Work.onlyCrag c s.work t.work ∧
        (getCrag t.work c).contrib =
          x.contrib ++ [{ tag := o.sumTag, pass := o.sumPass, sreg := fld o.pkt 132 4, kind := fld o.pkt 128 3, signed := bit o.pkt 131,
                          value := some (summaryValue x c o).1, poison := (summaryValue x c o).2 }] ∧
        ((findOp (getCrag t.work c) n).map (·.stage)) = some .done)

/-- What a waiting op waits for (R23, R78): a slot in the queue it pushes to lets it push, its result the last entry; an
acknowledgement of a Summit's window store, of a BAR2 write or of a write stream's write to device memory is counted. A write stream to the
host has its writes acknowledged all at once, by the zero-length read that it issues after the last of them (R447). -/
def Obligations.WaitsEndWithEntriesAndAcknowledgements : Prop :=
  ∀ (s : State), s.work.hold = none →
    (∀ c q n o e, c < 256 → (getCrag s.work c).fe.frozen = false → findOp (getCrag s.work c) n = some o →
      (getCrag s.work c).ops.filter (fun p => usesQueue p q) = [o] → isStream (opcOf o.pkt) = false → walks (opcOf o.pkt) = false →
      o.stage = .draining → o.outQ = [(q, e)] → qFull (getCrag s.work c) q = false →
      ∃ t, exec (.queueWaitEnd c q) s = .next t ∧ State.sameBut s t ∧ Work.onlyCrag c s.work t.work ∧
        (getQueue (getCrag t.work c) q).ents = (getQueue (getCrag s.work c) q).ents ++ [e] ∧
        (∀ k, k ≠ q → getQueue (getCrag t.work c) k = getQueue (getCrag s.work c) k) ∧
        ((findOp (getCrag t.work c) n).map (·.stage)) = some .done) ∧
    (∀ n k, n < 16 → (getSummit s.work n).wacks = k + 1 → (getSummit s.work n).stall = none →
      ∃ t, exec (.acknowledgement (.summit n)) s = .next t ∧ State.sameBut s t ∧ Work.onlySummit n s.work t.work ∧
        (getSummit t.work n).wacks = k) ∧
    (∀ k, s.work.bar2Acks = k + 1 → s.work.hostWait = [] →
      ∃ t, exec (.acknowledgement .host) s = .next t ∧ t.work = { s.work with bar2Acks := k }) ∧
    (∀ c n o k, c < 256 → findOp (getCrag s.work c) n = some o → opcOf o.pkt = 0x11 → o.acks = k + 1 →
      let asp := dAsp (getChan (getCrag s.work c) (strmCh o.pkt)).desc
      let here := fun (t : State) => State.sameBut s t ∧ ∀ j, j ≠ c → getCrag t.work j = getCrag s.work j
      (asp = 0 → ∃ t, exec (.acknowledgement (.op c n)) s = .next t ∧ here t ∧ t.work = { s.work with crags := t.work.crags } ∧
        ((findOp (getCrag t.work c) n).map fun q => (q.acks, q.stage)) =
          some (k, if k = 0 ∧ o.stage = .acking then .done else o.stage)) ∧
      (asp = 1 → o.stage = .acking → ∃ t, exec (.acknowledgement (.op c n)) s = .next t ∧ here t ∧
        t.work = { s.work with crags := t.work.crags, invals := t.work.invals, out := t.work.out } ∧
        (s.work.invals = [] → t.work.invals = [] ∧ t.work.out = s.work.out) ∧
        ((findOp (getCrag t.work c) n).map fun q => (q.acks, q.stage)) = some (0, .done)) ∧
      (asp = 1 → o.stage ≠ .acking → s.work.invals = [] → exec (.acknowledgement (.op c n)) s = .next s))

/-! ## Streams -/

/-- A stream op whose descriptor fails its checks when it starts, at once or after the wait of ORDER, raises BAD_DESC, having read and
written nothing: memory, queues, Ledge and outputs stay as they were, no op of the Crag changes, and its party stops (R89, R68). -/
def Obligations.BadDescriptorsReadAndWriteNothing : Prop :=
  ∀ (s : State) (c n opc : Nat) (cmd : Instr) (o : Op) (d : Desc), c < 256 → s.work.hold = none →
    (opc, cmd) ∈ [(0x10, Instr.streamRd c n), (0x11, Instr.streamWr c n), (0x12, Instr.streamMcast c n)] →
    let x := getCrag s.work c
    findOp x n = some o → opcOf o.pkt = opc → (opc = 0x12 → groupOpen s.work c o = true) →
    ((startable s.work c o = true ∧ chanFree x o = true ∧
        (∃ bs po, opRead x o.pkt (strmDesc o.pkt) 64 = .ok (bs, po) ∧ d = BitVec.ofNat 512 (leNat bs)) ∧
        (dOrder d && streamsBefore x n) = false) ∨
      (o.stage = .ordered ∧ streamsBefore x n = false ∧ x.fe.frozen = false ∧ canRun s.work (tenOfCrag s.work c) = true ∧
        d = (getChan x (strmCh o.pkt)).desc)) →
    descBad d (opc = 0x12) (opnd (dstOf o.pkt)).isLedge = true →
    ∃ t, exec cmd s = .next t ∧ State.sameBut s t ∧ t.work.dram = s.work.dram ∧ t.work.slices = s.work.slices ∧
      t.work.out = s.work.out ∧
      t.work.faultQ = s.work.faultQ ++ [faultMsg s.work.now (srcCrag s.work c) 0x08 (tenOfCrag s.work c)
        (ledgeWrap (strmDesc o.pkt) + seqOf o.pkt * 2 ^ 20)] ∧
      (getCrag t.work c).ledge = x.ledge ∧ (getCrag t.work c).queues = x.queues ∧ (getCrag t.work c).ops = x.ops ∧
      (c ∈ partyCrags s.work (leaderOfCrag s.work c) → (getCrag t.work c).fe.frozen = true)

/-- A stream op that starts holds its channel with its descriptor (R83, R84). STREAM.RD over device memory begins to read; STREAM.WR
of one whole block from the Ledge writes it at the element's address and waits for its acknowledgement (R85); STREAM.MCAST joins its
group and waits for the other members (R106), and the source begins to fetch when all are ready. -/
def Obligations.StreamsStart : Prop :=
  (∀ (s : State) (c n : Nat) (o : Op) (bs : List Byte), c < 256 → s.work.hold = none →
    let x := getCrag s.work c
    let d : Desc := BitVec.ofNat 512 (leNat bs)
    findOp x n = some o → startable s.work c o = true → chanFree x o = true → o.outQ = [] →
    opRead x o.pkt (strmDesc o.pkt) 64 = .ok (bs, false) →
    descBad d (opcOf o.pkt = 0x12) (opnd (dstOf o.pkt)).isLedge = false → dOrder d = false →
    dAsp d = 0 → dIdx d = false → dCmp d = false →
    (opcOf o.pkt = 0x10 → 0 < dTotal d → ∃ t, exec (.streamRd c n) s = .next t ∧ State.sameBut s t ∧
      Work.onlyCrag c s.work t.work ∧
      (getChan (getCrag t.work c) (strmCh o.pkt)).state = 1 ∧ (getChan (getCrag t.work c) (strmCh o.pkt)).desc = d ∧
      (getChan (getCrag t.work c) (strmCh o.pkt)).op = n ∧ (getChan (getCrag t.work c) (strmCh o.pkt)).done = 0 ∧
      (getChan (getCrag t.work c) (strmCh o.pkt)).cur = dAddr d 0 0 ∧
      ((findOp (getCrag t.work c) n).map (·.stage)) = some .reading ∧ (getCrag t.work c).queues = x.queues) ∧
    (∀ r data w, opcOf o.pkt = 0x11 → opnd (srcA o.pkt) = .ledge r → dTotal d = 1 → dEsz d = 128 → dAddr d 0 0 % 128 = 0 →
      opRead x o.pkt (opndLedge (srcA o.pkt)) 128 = .ok (data, false) → data.length = 128 →
      vWrite (setCrag s.work c (startSeq x o)) (.crag c) (strmReq (setCrag s.work c (startSeq x o)) c d) (dAddr d 0 0) data false
        = (w, none) → w.hold = none →
      ∃ t o' h', exec (.streamWr c n) s = .next t ∧ State.sameBut s t ∧
        t.work = setCrag w c (setChan (setOp (getCrag w c) o') (strmCh o.pkt) h') ∧ o'.n = n ∧ o'.stage = .acking ∧
        o'.acks = o.acks + 1 ∧ h'.done = 1 ∧ h'.op = n) ∧
    (opcOf o.pkt = 0x12 → groupOpen s.work c o = true →
      let g := fld o.pkt 146 6
      ∃ t, exec (.streamMcast c n) s = .next t ∧ State.sameBut s t ∧
        ((Tab.get (fun _ => none) t.work.mcast g) : Option (List (Nat × Nat))) =
          some (((Tab.get (fun _ => none) s.work.mcast g).getD []) ++ [(c, n)]) ∧
        ((findOp (getCrag t.work c) n).map (·.stage)) = some .member ∧
        (getChan (getCrag t.work c) (strmCh o.pkt)).state = 4 ∧ (∀ k, k ≠ c → getCrag t.work k = getCrag s.work k))) ∧
  (∀ (s : State) (c n g : Nat) (ms : List (Nat × Nat)) (q : Op), c < 256 → g < 64 → s.work.hold = none → (c, n) ∈ ms →
      let x := getCrag s.work c
      let d := (getChan x (strmCh q.pkt)).desc
      Tab.get (fun _ => (none : Option (List (Nat × Nat)))) s.work.mcast g = some ms →
      (ms.find? fun m => match findOp (getCrag s.work m.1) m.2 with
        | some p => decide (fld p.pkt 152 8 = m.1) && decide (p.stage = .member)
        | none => false) = some (c, n) → findOp x n = some q → q.mcSet.all (fun k => ms.any fun m => m.1 = k) = true →
      x.fe.frozen = false → dAsp d = 0 → dIdx d = false → dCmp d = false → opcOf q.pkt = 0x12 → q.outQ = [] →
      (getChan x (strmCh q.pkt)).next < dTotal d → (getChan x (strmCh q.pkt)).owed = [] →
      (getChan x (strmCh q.pkt)).pack = [] →
      ∃ t, exec (.mcastFetchStart g) s = .next t ∧ State.sameBut s t ∧ t.work = { s.work with crags := t.work.crags } ∧
        (∀ k, k ≠ c → getCrag t.work k = { getCrag s.work k with chans := (getCrag t.work k).chans }) ∧
        ((findOp (getCrag t.work c) n).map (·.stage)) = some .reading ∧
        (getChan (getCrag t.work c) (strmCh q.pkt)).state = 1)

/-- The last block of a read stream arrives (R78, R85, R88): from device memory, from the host, or as poisoned zeros when the host does
not answer (R448), it becomes the last entry of the destination queue, and the op has done everything. -/
def Obligations.LastBlockEntersTheQueue : Prop :=
  ∀ (s : State) (c n q : Nat) (o : Op), c < 256 → s.work.hold = none →
    let x := getCrag s.work c
    let h := getChan x (strmCh o.pkt)
    findOp x n = some o → x.fe.frozen = false → opcOf o.pkt = 0x10 → o.stage = .reading → o.outQ = [] →
    opnd (dstOf o.pkt) = .queue q → qFull x q = false → dCmp h.desc = false → dIdx h.desc = false → dEsz h.desc = 128 →
    h.cur % 128 = 0 → h.pack = [] → h.packPois = [] → h.owed = [] → h.descPois = false → dTotal h.desc = h.next + 1 →
    let done := fun (t : State) (e : Entry) =>
      (getQueue (getCrag t.work c) q).ents = (getQueue x q).ents ++ [e] ∧
      (∀ k, k ≠ q → getQueue (getCrag t.work c) k = getQueue x k) ∧
      ((findOp (getCrag t.work c) n).map (·.stage)) = some .done ∧ ((findOp (getCrag t.work c) n).map (·.count)) = some (o.count + 1) ∧
      (getChan (getCrag t.work c) (strmCh o.pkt)).done = bump h.done 1
    (∀ w bs po, dAsp h.desc = 0 → vRead s.work (.crag c) (strmReq s.work c h.desc) h.cur 128 = (w, bs, po, none) →
      w.hold = none → (getCrag w c).queues = x.queues → (getCrag w c).ops = x.ops → bs.length = 128 →
      ∃ t, exec (.streamReadReturn c n) s = .next t ∧ State.sameBut s t ∧ done t ⟨bs, true, po⟩ ∧ t.work.dram = w.dram) ∧
    (dAsp h.desc = 1 → h.asked = true → isStandby s.work = false → s.work.fwding = false →
      (∀ bs, bs.length = 128 → ∃ t, exec (.hostReadCompletion c n .ok bs false) s = .next t ∧ State.sameBut s t ∧
        t.work = { s.work with crags := t.work.crags, tens := t.work.tens, invals := t.work.invals, out := t.work.out } ∧
        (s.work.invals = [] → t.work.out = s.work.out) ∧ (∀ j, j ≠ c → getCrag t.work j = getCrag s.work j) ∧
        done t ⟨bs, true, false⟩) ∧
      (∃ t, exec (.completionTimeout c n) s = .next t ∧ State.sameBut s t ∧ done t ⟨zeros 128, true, true⟩ ∧
        t.work.cplErr = true ∧
        t.work.faultQ = s.work.faultQ ++ [faultMsg s.work.now srcPcie 0x59 (tenOfCrag s.work c) h.cur]))

/-- Translation of host pages (R112 to R114): a page that is present lets the stream ask for its block; one that is not stops the
channel, records its position and sends one Page Request; an answered request asks for the translation again; a refused one, or one
unanswered for PriTimeout, raises PAGE_FAULT. Each holds within the limits of Table 15.1: 768 tags, 512 page requests, 4,096 translations and
32 invalidations (R442). An invalidation drops the translation of every stream of its PASID, and is answered at
once when no access through it is under way (R449). -/
def Obligations.HostPagesAreAskedFor : Prop :=
  ∀ (s : State) (c ch : Nat) (o : Op) (h : Chan), c < 256 → ch < 8 → s.work.hold = none → hostChan s.work c ch = some (o, h) →
    (opcOf o.pkt = 0x10 → h.state = 1 → h.asked = false → h.next < dTotal h.desc → o.outQ = [] → dIdx h.desc = false →
      dCmp h.desc = false → h.cur = dAddr h.desc h.next 0 → hostPage (readBlock h) ∉ h.pages →
      (s.work.hostGone = false → (∀ e ∈ s.work.fwdData, ¬ (e.1 = c ∧ e.2.1 = ch)) → pagesHeld s.work < 4096 →
        tagsUsed s.work c o.n < 768 → ∃ t, exec (.atsTranslationResponse c ch .present) s = .next t ∧ State.sameBut s t ∧
        t.work = { s.work with crags := t.work.crags, out := t.work.out } ∧
        t.work.out = s.work.out ++ [.hostRead (pasidOf s.work c) (readBlock h) 128 (dNosnoop h.desc)] ∧
        (getChan (getCrag t.work c) ch).asked = true ∧ hostPage (readBlock h) ∈ (getChan (getCrag t.work c) ch).pages) ∧
      (h.pack = [] → pagesAsked s.work < 512 → ∃ t, exec (.atsTranslationResponse c ch .notPresent) s = .next t ∧ State.sameBut s t ∧
        t.work = { s.work with crags := t.work.crags, out := t.work.out } ∧
        t.work.out = s.work.out ++ [.pageRequest (pasidOf s.work c) (readBlock h)] ∧
        (getChan (getCrag t.work c) ch).state = 3 ∧ (getChan (getCrag t.work c) ch).since = s.work.now ∧
        (getChan (getCrag t.work c) ch).faultVa = BitVec.ofNat 48 h.cur)) ∧
    (h.state = 3 →
      (tagsUsed s.work c o.n < 768 → ∃ t, exec (.pageRequestResponse c ch true) s = .next t ∧ State.sameBut s t ∧
        t.work = { s.work with crags := t.work.crags, out := t.work.out } ∧
        t.work.out = s.work.out ++ [.atsRequest (pasidOf s.work c) (hostPage (hostNeed o h))] ∧
        getChan (getCrag t.work c) ch = { h with state := 1 } ∧ (∀ k, k ≠ c → getCrag t.work k = getCrag s.work k)) ∧
      (∀ cmd, cmd = Instr.pageRequestResponse c ch false ∨
          (cmd = Instr.priTimeout c ch ∧ h.since.toNat + od s.work 0x1307 ≤ s.work.now.toNat) →
        ∃ t, exec cmd s = .next t ∧ State.sameBut s t ∧ t.work.priFail = true ∧ t.work.out = s.work.out ∧
          t.work.dram = s.work.dram ∧ (getChan (getCrag t.work c) ch).pfFail = true ∧
          (getCrag t.work c).ops = (getCrag s.work c).ops ∧
          t.work.faultQ = s.work.faultQ ++ [faultMsg s.work.now (srcCrag s.work c) 0x09 (tenOfCrag s.work c) h.faultVa.toNat]) ∧
      (s.work.now.toNat < h.since.toNat + od s.work 0x1307 → exec (.priTimeout c ch) s = .next s)) ∧
    (∀ pasid page, s.work.invals.length < 32 → ∃ t, exec (.atsInvalidation pasid page) s = .next t ∧ State.sameBut s t ∧
      t.work = { s.work with crags := t.work.crags, invals := t.work.invals, out := t.work.out } ∧
      (pasid = pasidOf s.work c → page ∉ (getChan (getCrag t.work c) ch).pages) ∧
      ((∀ e ∈ s.work.crags, ∀ q ∈ e.2.ops, pasidOf s.work e.1 = pasid → holdsPage s.work e.1 q page = true →
          accessing s.work e.1 q = false) → t.work.out.getLast? = some (.atsInvalidated pasid page)))

/-! ## The scheduled region, and the faults of a Crag's own counts -/

/-- The scheduled region and the faults of a Crag's counts, one clause for each command, each of which says where it completes.
STREAM.REGION, once it may start and no earlier STREAM.CLOSE is left, arms the region with its LIMIT and TOL; STREAM.CLOSE, once it may
start, or waits, and no earlier scheduled op is left, closes it (R98). LATE: when the timer has passed LIMIT or a unit has waited past TOL,
it is raised, its flags are set, and the party stops (R102, R68). QDEADLOCK: when both units have been blocked for 65,536 cycles it is raised,
with CRAG_QDL written, but LATE alone where that is due as well (R96, R97). Bivouac is entered after 4,096 cycles of its condition (R304). -/
def Obligations.RegionsAndCounts : Prop :=
  (∀ (s : State) (c n : Nat) (o : Op), c < 256 → s.work.hold = none → findOp (getCrag s.work c) n = some o → opcOf o.pkt = 0x1C →
    startable s.work c o = true → (earlier (getCrag s.work c) n).any (fun e => opcOf e.pkt = 0x1D) = false →
    ∃ t, exec (.streamRegion c n) s = .next t ∧ State.sameBut s t ∧ Work.onlyCrag c s.work t.work ∧
      (getCrag t.work c).region.state = 1 ∧ (getCrag t.work c).region.limit = BitVec.ofNat 32 (fld o.pkt 160 32) ∧
      (getCrag t.work c).region.tol = BitVec.ofNat 32 (fld o.pkt 192 32) ∧
      ((findOp (getCrag t.work c) n).map (·.stage)) = some .done) ∧
  (∀ (s : State) (c n : Nat) (o : Op), c < 256 → s.work.hold = none → findOp (getCrag s.work c) n = some o → opcOf o.pkt = 0x1D →
    startable s.work c o = true ∨ (o.stage = .waiting ∧ (getCrag s.work c).fe.frozen = false) →
    schedBefore (getCrag s.work c) n = false → o.posts = false →
    ∃ t, exec (.streamClose c n) s = .next t ∧ State.sameBut s t ∧
      t.work = { s.work with crags := t.work.crags, tens := t.work.tens } ∧ (∀ k, k ≠ c → getCrag t.work k = getCrag s.work k) ∧
      ((getTen s.work (tenOfCrag s.work c)).deferred = false → t.work.tens = s.work.tens) ∧
      (getCrag t.work c).region.state = 0 ∧ (getCrag t.work c).ops = (getCrag s.work c).ops.filter (fun p => p.n ≠ n)) ∧
  (∀ (s : State) (c : Nat), c < 256 → s.work.hold = none → lateDue (getCrag s.work c) = true →
    ∃ t m, exec (.late c) s = .next t ∧ State.sameBut s t ∧ t.work.faultQ = s.work.faultQ ++ [m] ∧ m.kind = 0x01 ∧
      m.src = srcCrag s.work c ∧
      (getCrag t.work c).region.lateLimit = ((getCrag s.work c).region.lateLimit || limitPassed (getCrag s.work c)) ∧
      (getCrag t.work c).region.lateTol = ((getCrag s.work c).region.lateTol || tolPassed (getCrag s.work c)) ∧
      (getSummit t.work (leaderOfCrag s.work c)).state = .faulted ∧
      (c ∈ partyCrags s.work (leaderOfCrag s.work c) → (getCrag t.work c).fe.frozen = true)) ∧
  (∀ (s : State) (c : Nat), c < 256 → s.work.hold = none → qdlDue s.work c = true →
    ∃ t m, exec (.qdeadlock c) s = .next t ∧ State.sameBut s t ∧ t.work.faultQ = s.work.faultQ ++ [m] ∧
      m.kind = (if lateDue (getCrag s.work c) then 0x01 else 0x02) ∧ m.src = srcCrag s.work c ∧
      (getCrag t.work c).region.qdl = BitVec.ofNat 32 (qdlValue s.work c) ∧
      (getSummit t.work (leaderOfCrag s.work c)).state = .faulted ∧
      (c ∈ partyCrags s.work (leaderOfCrag s.work c) → (getCrag t.work c).fe.frozen = true)) ∧
  (∀ (s : State) (c : Nat), c < 256 → s.work.hold = none → (getCrag s.work c).bivouac = false → (getCrag s.work c).fe.frozen = false →
    4096 ≤ (getCrag s.work c).idle → bivCond (getCrag s.work c) = true →
    ∃ t, exec (.bivouacEnter c) s = .next t ∧ State.sameBut s t ∧ Work.onlyCrag c s.work t.work ∧
      getCrag t.work c = { getCrag s.work c with bivouac := true })

/-! ## The engines -/

/-- An op of an engine that may start (R37) starts: its registers, its SEQ, its epoch and its tenancy's seed are recorded, and its
descriptor and its hyperparameters are read. An op of the fabric or of the Gather-and-Merge Engine takes the entries its
queues hold; short of entries, it waits with what it took. With all of them it runs, its results go to its destination in order, and it has
done everything when every result has been pushed; its count and its cycles are the engine's (R56, R65). An op that walks its input list, a chain of the Vector Engine strip
by strip (R193), takes one step after another until it waits, has done everything, or an error stops it (R57). An op that the grade leaves out starts,
completes and raises ABSENT_UNIT (R69). VOP.FLAGS runs once no earlier op of its unit is left, and then as every other op of the EU
(R205); before that it does not start. -/
def Obligations.EngineOpsStartAndRun : Prop :=
  (∀ (s : State) (c n : Nat) (ext : Mem) (opcs : List Nat) (cmd : Instr) (o : Op), c < 256 → s.work.hold = none →
    (opcs, cmd) ∈ engineRows c n ext → findOp (getCrag s.work c) n = some o → opcOf o.pkt ∈ opcs → startable s.work c o = true →
    (absent s.work o.pkt = true → o.posts = false → ∃ t, exec cmd s = .next t ∧ State.sameBut s t ∧
      t.work.faultQ = s.work.faultQ ++ [faultMsg s.work.now (srcCrag s.work c) 0x05 (tenOfCrag s.work c)
        (opcOf o.pkt * 256 + seqOf o.pkt)] ∧
      (getCrag t.work c).ops = (getCrag s.work c).ops.filter (fun p => p.n ≠ n) ∧ t.work.dram = s.work.dram) ∧
    (absent s.work o.pkt = false → ∀ w d po hyp hp,
      let o1 := begunOp s.work c o
      let w1 := begunWork s.work c o1
      startDesc w1 c o1 = (w, .ok (d, po)) → hypOf (getCrag w1 c) o.pkt = .ok (hyp, hp) → w.hold = none →
      let v := if po && walks (opcOf o.pkt) then noteCrag w c o1 true else w
      let o2 := { o1 with desc := d, descPois := po, hyp := hyp, hypPois := hp }
      o2.epoch = (getCrag s.work c).epoch ∧ o2.seed.toNat = od s.work 0x400D 0 (tenOfCrag s.work c) % 2 ^ 64 ∧
      (walks (opcOf o.pkt) = false →
        let r := takeInputs 513 (getCrag v c) o2
        let short := decide ((needs r.2).length ≠ 0)
        let w2 := setCrag v c (engineState (setOp r.1 r.2) r.2 short)
        (short = true → exec cmd s = .next { s with work := w2 }) ∧
        (short = false → ∀ g, engineRun w2 c r.2 = .ok g →
          let y := pushMany g.crag g.out
          ∃ t o', exec cmd s = .next t ∧ State.sameBut s t ∧ o'.n = n ∧
            getCrag t.work c = setOp (engineState y.1 o' (decide (y.2 ≠ []))) o' ∧ o'.outQ = y.2 ∧
            o'.stage = (if y.2 = [] then .done else .draining) ∧ o'.count = g.count ∧ o'.cycles = r.2.cycles + g.cycles ∧
            o'.ffl = g.ffl ∧ o'.vfl = g.vfl ∧ t.work.dram = w.dram ∧ ∀ j, j ≠ c → getCrag t.work j = getCrag w j) ∧
        (short = false → ∀ e, engineRun w2 c r.2 = .error e → exec cmd s = .next { s with work := opFault w2 c e })) ∧
      (walks (opcOf o.pkt) = true → ∀ (k : Nat) (f : Nat → Work × Op), k < walkFuel → f 0 = (v, o2) →
        (∀ i, i < k → walkStep (f i).1 c (f i).2 = .go (f (i + 1)).1 (f (i + 1)).2) →
        (∀ u q st, walkStep (f k).1 c (f k).2 = .rest u q st → u.hold = none → exec cmd s = .next { s with work := walkRest u c q st }) ∧
        (∀ u q e, walkStep (f k).1 c (f k).2 = .fail u q e → u.hold = none →
          exec cmd s = .next { s with work := walkFail u c q e })))) ∧
  (∀ (s : State) (c n : Nat) (o : Op), c < 256 → s.work.hold = none → findOp (getCrag s.work c) n = some o →
    opcOf o.pkt = 0x4F → startable s.work c o = true →
    (unitDrained (getCrag s.work c) o = true →
      ∃ t o', exec (.vopFlags c n) s = .next t ∧ State.sameBut s t ∧ Work.onlyCrag c s.work t.work ∧
        findOp (getCrag t.work c) n = some o' ∧ o'.stage = .done ∧ o'.count = 0 ∧
        (getCrag t.work c).ex.vflags = (getCrag s.work c).ex.vflags &&& ~~~(BitVec.ofNat 7 (fld o.pkt 128 7)) ∧
        (∀ k, bitsN (fld o.pkt 128 7) k 1 = 1 →
          ∀ d, Tab.get d (getCrag t.work c).ex.vlanef k = d k) ∧
        (getCrag t.work c).vregs = (getCrag s.work c).vregs) ∧
    (unitDrained (getCrag s.work c) o = false → exec (.vopFlags c n) s = .next s))

/-- Integer results of the fabric do not depend on the order of its summation tree: the INT32 sum of the products and C, wrapped to 32
bits (R133, R140). The min-plus fold over integers gives the least term (R129). -/
def Obligations.FabricIntegerResults : Prop :=
  (∀ (c : Int) (ps : List (Int × Int)), -2 ^ 31 ≤ c → c < 2 ^ 31 →
    (dotOut 0 true (.i c) (ps.map fun p => (some (.i p.1), some (.i p.2)))).1 =
      .i (toSigned 32 (ofInt 32 (c + (ps.map fun p => p.1 * p.2).sum)))) ∧
  (∀ (c : Int) (ts : List Int), (semiFold 1 0 (.i c) none (ts.map Acc.i)).1 = .i (ts.foldl min c))

/-! ## Belays and tasks -/

/-- BELAY.POST to a Belay of this device within the tenancy's ranges sends one post with its increment and signaller, and reports 1 (R267,
R268, R275); outside them it is not made and raises BELAY_RANGE. A remote one that names this device sends one POST frame, which is looped
back, and waits for its response (R276, R465). A post applied at its slice adds its increment to the Belay's value, saturating at 2^64 - 1
with SAT set, and records signaller and IT (R267); every other Belay stays. Waiters apart, that is all. A post behind an earlier one of the
same agent, host or other device, is not applied before it (R276, R452). -/
def Obligations.PostsAreSentAndApplied : Prop :=
  (∀ (s : State) (c n : Nat) (o : Op), c < 256 → s.work.hold = none →
    let x := getCrag s.work c
    let b := fld o.pkt 128 16
    findOp x n = some o → opcOf o.pkt = 0x80 → startable s.work c o = true → bit o.pkt 160 = false →
    (bit o.pkt 161 = true → ackedBefore s.work c n = true) →
    (mayBelay s.work (tenOfCrag s.work c) 33 b = true → ∃ t, exec (.belayPost c n) s = .next t ∧ State.sameBut s t ∧
      t.work.posts = s.work.posts ++ [{ belay := b, inc := BitVec.ofNat 32 (fld o.pkt 192 32),
                                        sig := sigCrag s.work c o.unit, crag := some (c, n), reply := none }] ∧
      t.work.belays = s.work.belays ∧ t.work.dram = s.work.dram ∧ (∀ j, j ≠ c → getCrag t.work j = getCrag s.work j) ∧
      ((findOp (getCrag t.work c) n).map fun q => (q.stage, q.count)) = some (.done, 1)) ∧
    (mayBelay s.work (tenOfCrag s.work c) 33 b = false → ∃ t m, exec (.belayPost c n) s = .next t ∧ State.sameBut s t ∧
      t.work.posts = s.work.posts ∧ t.work.faultQ = s.work.faultQ ++ [m] ∧ m.kind = 0x21 ∧ m.src = srcCrag s.work c ∧
      (getCrag t.work c).ac.bRange = true)) ∧
  (∀ (s : State) (c n : Nat) (o : Op), c < 256 → s.work.hold = none →
    findOp (getCrag s.work c) n = some o → opcOf o.pkt = 0x80 → startable s.work c o = true → bit o.pkt 160 = true →
    (bit o.pkt 161 = true → ackedBefore s.work c n = true) → silenced s.work = false → fld o.pkt 144 16 = devId s.work →
    ∃ t f, exec (.belayPost c n) s = .next t ∧ State.sameBut s t ∧ t.work.loopQ = s.work.loopQ ++ [f] ∧
      f.typ = 3 ∧ f.dst.toNat = devId s.work ∧ f.src = f.dst ∧ f.srcTen = tenOfCrag s.work c ∧
      f.addr.toNat = fld o.pkt 128 16 ∧ f.inc = BitVec.ofNat 32 (fld o.pkt 192 32) ∧
      t.work.remotes.map (·.tag) = s.work.remotes.map (·.tag) ++ [f.tag] ∧
      t.work.posts = s.work.posts ∧ t.work.belays = s.work.belays ∧ t.work.dram = s.work.dram ∧
      (∀ j, j ≠ c → getCrag t.work j = getCrag s.work j) ∧
      ((findOp (getCrag t.work c) n).map fun q => (q.stage, q.count)) = some (.waiting, 1)) ∧
  (∀ (s : State) (b : Nat) (p : Post), b < 65536 → s.work.hold = none →
    s.work.posts.find? (fun q => decide (q.belay = b)) = some p →
    (postBehind s.work.posts p = true → exec (.belayPostApply b) s = .next s) ∧
    (postBehind s.work.posts p = false → p.reply = none → (getBelay s.work b).waiters = [] →
    let x := getBelay s.work b
    ∃ t, exec (.belayPostApply b) s = .next t ∧ State.sameBut s t ∧
      (getBelay t.work b).value = BitVec.ofNat 64 (min (x.value.toNat + p.inc.toNat) (2 ^ 64 - 1)) ∧
      (getBelay t.work b).sat = (x.sat || decide (2 ^ 64 ≤ x.value.toNat + p.inc.toNat)) ∧
      (getBelay t.work b).lastSig = p.sig ∧ (getBelay t.work b).lastIt = s.work.now ∧
      (∀ k, k ≠ b → getBelay t.work k = getBelay s.work k) ∧
      t.work = { s.work with belays := t.work.belays, posts := s.work.posts.eraseP (fun q => decide (q.belay = b)) }))

/-- BELAY.WAIT on one Belay (R268, R272, R275): a target already reached completes the wait with count 1; else the wait is registered at
the Belay's end and its unit waits. A registered wait whose watchdog has run out ends unmet with BELAYTMO (R283). -/
def Obligations.BelayWaitsRegisterCompleteOrTimeOut : Prop :=
  ∀ (s : State) (c n : Nat) (o : Op), c < 256 → s.work.hold = none →
    let x := getCrag s.work c
    let b := fld o.pkt 128 16
    findOp x n = some o →
    (opcOf o.pkt = 0x81 → startable s.work c o = true → o.head = false → fld o.pkt 149 2 = 0 → o.posts = false →
      mayBelay s.work (tenOfCrag s.work c) 34 b = true →
      (waitMet (getBelay s.work b).value (waitTarget x o.pkt) = true → ∃ t, exec (.belayWait c n) s = .next t ∧
        State.sameBut s t ∧ Work.onlyCrag c s.work t.work ∧ (getCrag t.work c).ops = x.ops.filter (fun p => p.n ≠ n) ∧
        (if o.unit = 0 then (getCrag t.work c).cntAu else (getCrag t.work c).cntEu) = o.count + 1) ∧
      (waitMet (getBelay s.work b).value (waitTarget x o.pkt) = false → ∃ t, exec (.belayWait c n) s = .next t ∧
        State.sameBut s t ∧
        (getBelay t.work b).waiters = (getBelay s.work b).waiters ++
          [{ crag := c, unit := o.unit, op := n, target := waitTarget x o.pkt, elapsed := 0 }] ∧
        (getBelay t.work b).value = (getBelay s.work b).value ∧ (∀ k, k ≠ b → getBelay t.work k = getBelay s.work k) ∧
        ((findOp (getCrag t.work c) n).map (·.stage)) = some .waiting)) ∧
    (∀ y : Nat × Waiter, waiterOf s.work c o = some y → od s.work 0x4020 0 (tenOfCrag s.work c) ≤ y.2.elapsed →
      x.fe.frozen = false → ∃ t m, exec (.belaytmo c n) s = .next t ∧ State.sameBut s t ∧
        t.work.faultQ = s.work.faultQ ++ [m] ∧ m.kind = 0x20 ∧ m.src = srcCrag s.work c ∧
        (getCrag t.work c).ac.bTimeout = true ∧ (getCrag t.work c).ops = x.ops.filter (fun p => p.n ≠ n) ∧
        (getBelay t.work y.1).value = (getBelay s.work y.1).value)

/-- The Scheduler (R287 to R302), with the decision trace off: TASK.TAKE without a task waits in order of arrival, or reports 0 with
NOWAIT; TASK.PUT of one entry writes its task to the store and puts it in its place in put order, last of those put before, when its
release has passed; TASK.DONE frees its slot; a grant moves the task that became eligible first to the slot of the TAKE that the rules
name, its entry read from the store (v is the data plane after that read); the first delayed task becomes ready once its release has come
and no Event Table entry of an earlier tick is due (R380). -/
def Obligations.TasksArePutGrantedAndDone : Prop :=
  ∀ (s : State), s.work.hold = none → od s.work 0x2322 = 0 →
    (∀ c n o, c < 256 → findOp (getCrag s.work c) n = some o → startable s.work c o = true →
      let x := getCrag s.work c
      let ten := tenOfCrag s.work c
      let w := setCrag s.work c (startSeq x o)
      (opcOf o.pkt = 0x84 → getSlot x (fld o.pkt 136 2) = none → takeScan w ten (fld o.pkt 128 8) = none →
        (bit o.pkt 138 = false → ∃ t, exec (.taskTake c n) s = .next t ∧ State.sameBut s t ∧
          t.work.sched.takers = s.work.sched.takers ++
            [{ crag := c, unit := o.unit, op := n, ten := ten, mask := BitVec.ofNat 8 (fld o.pkt 128 8),
               slot := fld o.pkt 136 2, since := s.work.now }] ∧
          t.work.sched.ready = s.work.sched.ready ∧ ((findOp (getCrag t.work c) n).map (·.stage)) = some .waiting) ∧
        (bit o.pkt 138 = true → ∃ t, exec (.taskTake c n) s = .next t ∧ State.sameBut s t ∧
          Work.onlyCrag c s.work t.work ∧ ((findOp (getCrag t.work c) n).map fun q => (q.stage, q.count)) = some (.done, 0))) ∧
      (∀ bs po r, opcOf o.pkt = 0x85 → ackedBefore s.work c n = true → fld o.pkt 128 16 = 1 → o.inA = [] →
        opnd (srcA o.pkt) = .ledge r → opRead x o.pkt (opndLedge (srcA o.pkt)) 128 = .ok (bs, po) →
        let k := taskOf bs ten 0 c o.unit
        ∀ v k2, ownsFlow w ten k.flow = true → putWaits w k = false → k.release.toNat ≤ s.work.now.toNat →
        storeTask (wakeFlow (takeSeq w).2 k.flow) { k with seq := s.work.sched.nextSeq } = (v, k2) →
        v.hold = none →
        ∃ t, exec (.taskPut c n) s = .next t ∧ State.sameBut s t ∧ t.work.dram = v.dram ∧
          t.work.sched.ready = insReady k2 s.work.sched.ready ∧
          ((∀ q ∈ s.work.sched.ready, q.seq ≤ s.work.sched.nextSeq) → t.work.sched.ready = s.work.sched.ready ++ [k2]) ∧
          k2 = { k with seq := s.work.sched.nextSeq, store := k2.store } ∧
          t.work.sched.nextSeq = s.work.sched.nextSeq + 1 ∧ t.work.sched.delay = s.work.sched.delay ∧
          ((findOp (getCrag t.work c) n).map fun q => (q.stage, q.count)) = some (.done, o.count + 1)) ∧
      (opcOf o.pkt = 0x86 → ackedBefore s.work c n = true →
        (getSlot x (fld o.pkt 128 2) = none → ∃ t, exec (.taskDone c n) s = .next t ∧ State.sameBut s t ∧
          Work.onlyCrag c s.work t.work ∧ (getCrag t.work c).ac.tDoneEmpty = true ∧
          ((findOp (getCrag t.work c) n).map fun q => (q.stage, q.count)) = some (.done, 0)) ∧
        (∀ k, getSlot x (fld o.pkt 128 2) = some k → (∀ e ∈ s.work.crags, ∀ p ∈ e.2.ops, p.stage ≠ .waiting) →
          ∃ t, exec (.taskDone c n) s = .next t ∧ State.sameBut s t ∧
            t.work = { s.work with crags := t.work.crags, sched := { s.work.sched with elig := t.work.sched.elig } } ∧
            (∀ j, j ≠ c → getCrag t.work j = getCrag s.work j) ∧ getSlot (getCrag t.work c) (fld o.pkt 128 2) = none ∧
            ((findOp (getCrag t.work c) n).map fun q => (q.stage, q.count)) = some (.done, 1)))) ∧
    (∀ k k2 taker reason v, nextGrant s.work = some k → grantee s.work k = some (taker, reason) →
      getSlot (getCrag s.work taker.crag) taker.slot = none → k.store / 4096 ∉ s.work.retired →
      (s.work.sched.ready ++ s.work.sched.delay).find? (fun q => decide (q.seq = k.seq)) = some k →
      readTask s.work k = (v, some k2) → v.hold = none → od v 0x2322 = 0 →
      ∃ t, exec (.taskGrant k.seq) s = .next t ∧ State.sameBut s t ∧
        t.work.sched.ready = v.sched.ready.filter (fun q => q.seq ≠ k.seq) ∧
        t.work.sched.delay = v.sched.delay.filter (fun q => q.seq ≠ k.seq) ∧
        t.work.sched.takers = v.sched.takers.filter (fun q => !(q.crag = taker.crag && q.op = taker.op)) ∧
        k2 = { k with payload := k2.payload } ∧ getSlot (getCrag t.work taker.crag) taker.slot = some { k2 with ret := false } ∧
        t.work.dram = v.dram) ∧
    (∀ k rest, s.work.sched.delay = k :: rest → k.release.toNat ≤ s.work.now.toNat → eventBefore s k = false →
      (∀ e ∈ s.work.crags, ∀ p ∈ e.2.ops, p.stage ≠ .waiting) →
      ∃ t, exec (.delayRelease k.seq) s = .next t ∧ State.sameBut s t ∧
        t.work.sched.ready = insReady k s.work.sched.ready ∧ t.work.sched.delay = rest ∧ t.work.crags = s.work.crags)

/-- MARK outside Duplex (R483, R484, R486): MARK.EPOCH gives its Crag the next epoch, or the one it names, and reports 1; MARK.DIGEST
over blocks it may read reports their number and changes no memory. -/
def Obligations.MarksOutsideDuplex : Prop :=
  ∀ (s : State) (c n : Nat) (o : Op), c < 256 → s.work.hold = none → s.work.duplex = false →
    let x := getCrag s.work c
    findOp x n = some o → startable s.work c o = true →
    (opcOf o.pkt = 0x88 → ackedBefore s.work c n = true →
      (s.twin.closedAt.filter fun k => k.1 = leaderOfCrag s.work c).length ≤ 64 →
      ∃ t, exec (.markEpoch c n) s = .next t ∧ Work.onlyCrag c s.work t.work ∧ t.twin = s.twin ∧
        (getCrag t.work c).epoch = (if bit o.pkt 128 then BitVec.ofNat 64 (fld o.pkt 192 64) else x.epoch + 1) ∧
        ((findOp (getCrag t.work c) n).map fun q => (q.stage, q.count)) = some (.done, 1)) ∧
    (∀ bs po, opcOf o.pkt = 0x89 → opRead x o.pkt (opndLedge (srcA o.pkt)) (128 * fld o.pkt 128 16) = .ok (bs, po) →
      ∃ t, exec (.markDigest c n) s = .next t ∧ State.sameBut s t ∧ Work.onlyCrag c s.work t.work ∧
        (getCrag t.work c).ledge = x.ledge ∧ (getCrag t.work c).epoch = x.epoch ∧
        ((findOp (getCrag t.work c) n).map fun q => (q.stage, q.count)) = some (.done, fld o.pkt 128 16))

/-! ## Registers of BAR0: Crags and Summits -/

/-- A Crag reset written while the leader of the Crag's party is RUNNING is refused: CRAG_STATE.REFUSED is set and nothing else
changes, in the Crag or outside it (R71). -/
def Obligations.CragResetIsRefusedWhileRunning : Prop :=
  ∀ (s : State) (b : Bank) (c : Nat), s.work.hold = none → s.bankOpen b → winUnit s (bankNo b) 0 = some c →
    (getSummit s.work (leaderOfCrag s.work c)).state = .running →
    exec (.cragReset b) s = .next { s with work := setCrag s.work c { getCrag s.work c with refused := true } }

/-- A Crag reset that is not refused empties the Crag's FIFO, issue buffers, queues and channels and clears its vector registers and
counts; its waits and takes are withdrawn and its tasks returned; the Ledge and the other Crags stay, the packets on their way will be
discarded, and the leader's credit is 64 again when there is none (R72, R286, R298, R300). A party reset (R70) without tasks in service
leaves its leader in RESET, stalled on nothing, with all its credits and no SUMMARY under way, keeping IMEM and its registers (log entry
122); each of its Crags has no op, no packet, empty queues and free channels, and keeps its Ledge and vector registers; Crags and Summits
outside the party stay. -/
def Obligations.CragAndPartyResets : Prop :=
  (∀ (s : State) (b : Bank) (c : Nat), s.work.hold = none → s.bankOpen b → winUnit s (bankNo b) 0 = some c →
    (getSummit s.work (leaderOfCrag s.work c)).state ≠ .running →
    (getCrag s.work c).slots = [] ∨ (unregister s.work c).hold = none →
    let x := getCrag s.work c
    ∃ t, exec (.cragReset b) s = .next t ∧ State.sameBut s t ∧
      (x.slots = [] → t.work = { s.work with crags := t.work.crags, summits := t.work.summits, belays := t.work.belays, mcast := t.work.mcast,
                                             sched := t.work.sched, tens := t.work.tens, fwdData := t.work.fwdData }) ∧
      t.work.belays = (removeWaits s.work c).belays ∧
      t.work.sched.takers = s.work.sched.takers.filter (fun k => k.crag ≠ c) ∧
      (getCrag t.work c).slots = [] ∧ (getCrag t.work c).ac.tReturned = (x.slots.any fun e => e.2.isSome) ∧
      (getCrag t.work c).fe.flight = x.fe.flight.map (fun f => { f with discard := true }) ∧
      (getCrag t.work c).ops = [] ∧ (getCrag t.work c).queues = [] ∧ (getCrag t.work c).chans = [] ∧
      (getCrag t.work c).fe.fifo = [] ∧ (getCrag t.work c).fe.counts = [] ∧ (getCrag t.work c).vregs = [] ∧
      (getCrag t.work c).contrib = [] ∧ (getCrag t.work c).epoch = 0 ∧ (getCrag t.work c).ledge = x.ledge ∧
      (getCrag t.work c).refused = x.refused ∧ (∀ k, k ≠ c → getCrag t.work k = getCrag s.work k) ∧
      (x.fe.flight = [] → Tab.get creditD (getSummit t.work (leaderOfCrag s.work c)).credits c = 64) ∧
      (∀ k, k ≠ leaderOfCrag s.work c → getSummit t.work k = getSummit s.work k)) ∧
  ((∀ (s : State) (b : Bank) (n : Nat), s.work.hold = none → s.bankOpen b → winUnit s (bankNo b) 6 = some n →
    (getSummit s.work n).state ≠ .ganged → (∀ c ∈ partyCrags s.work n, (getCrag s.work c).slots = []) →
    (∀ k ∈ partySpurs s.work n, isWithdrawn s.work k = false) →
    ∃ t, exec (.summitReset b) s = .next t ∧ State.sameBut s t ∧
      t.work = { s.work with crags := t.work.crags, summits := t.work.summits, belays := t.work.belays, mcast := t.work.mcast,
                             sched := t.work.sched, tens := t.work.tens, fwdData := t.work.fwdData } ∧
      (getSummit t.work n).state = .reset ∧ (getSummit t.work n).stall = none ∧ (getSummit t.work n).credits = [] ∧
      (getSummit t.work n).reds = [] ∧ (getSummit t.work n).sumSent = [] ∧ (getSummit t.work n).issued = 0 ∧
      (getSummit t.work n).imem = (getSummit s.work n).imem ∧ (getSummit t.work n).dmem = (getSummit s.work n).dmem ∧
      (getSummit t.work n).xs = (getSummit s.work n).xs ∧ (∀ k, k ≠ n → getSummit t.work k = getSummit s.work k) ∧
      (∀ c ∈ partyCrags s.work n, (getCrag t.work c).ops = [] ∧ (getCrag t.work c).fe.fifo = [] ∧
        (getCrag t.work c).fe.flight = [] ∧ (getCrag t.work c).queues = [] ∧ (getCrag t.work c).chans = [] ∧
        (getCrag t.work c).ledge = (getCrag s.work c).ledge ∧ (getCrag t.work c).vregs = (getCrag s.work c).vregs) ∧
      (∀ c, c ∉ partyCrags s.work n → getCrag t.work c = getCrag s.work c)) ∧
  (∀ (w : Work) (c : Nat), (getCrag (partyResetCrag w c) c).ops = [] ∧ (getCrag (partyResetCrag w c) c).fe.fifo = [] ∧
    (getCrag (partyResetCrag w c) c).fe.flight = [] ∧ (getCrag (partyResetCrag w c) c).queues = [] ∧
    (getCrag (partyResetCrag w c) c).chans = [] ∧ (getCrag (partyResetCrag w c) c).ledge = (getCrag w c).ledge ∧
    (getCrag (partyResetCrag w c) c).vregs = (getCrag w c).vregs))

/-- The actions of a Summit's window (R73, Table 2.11): RUN starts a Summit in RESET at its start address and resumes one in HALTED
where it stands; HALT stops a running one between instructions; LOAD begins the copy of its images, and the copy's end leaves them in
IMEM and DMEM with the Summit in RESET. -/
def Obligations.SummitActionsRunHaltAndLoad : Prop :=
  ∀ (s : State) (b : Bank) (n : Nat), s.work.hold = none → s.bankOpen b → winUnit s (bankNo b) 6 = some n →
    let m := getSummit s.work n
    (s.work.dstate = .run → (partySpurs s.work n).any (isWithdrawn s.work) = false → sparing s.work n = false →
      (m.state = .reset → ∃ t, exec (.summitRun b) s = .next t ∧ State.sameBut s t ∧ Work.onlySummit n s.work t.work ∧
        getSummit t.work n =
          { m with state := .running, pc := BitVec.ofNat 64 (m.pcStart.toNat / 2 * 2), runHeld := false }) ∧
      (m.state = .halted → ∃ t, exec (.summitRun b) s = .next t ∧ State.sameBut s t ∧ Work.onlySummit n s.work t.work ∧
        getSummit t.work n = { m with state := .running, runHeld := false })) ∧
    (m.state = .running → m.stall = none → ∃ t, exec (.summitHalt b) s = .next t ∧ State.sameBut s t ∧
      Work.onlySummit n s.work t.work ∧ getSummit t.work n = { m with state := .halted }) ∧
    (m.state = .reset → ∃ t, exec (.summitLoad b) s = .next t ∧ State.sameBut s t ∧ Work.onlySummit n s.work t.work ∧
      getSummit t.work n = { m with state := .loading }) ∧
    (n < 16 → m.state = .loading → ∀ w1 w2 ib db, loadImage s.work n m.imemSrc.toNat m.imemLen.toNat = (w1, ib, true) →
      loadImage w1 n m.dmemSrc.toNat m.dmemLen.toNat = (w2, db, true) → w2.hold = none →
      ∃ t, exec (.summitLoadDone n) s = .next t ∧ State.sameBut s t ∧ Work.onlySummit n w2 t.work ∧
        (getSummit t.work n).state = .reset ∧ (getSummit t.work n).loadErr = false ∧
        (getSummit t.work n).imem = Mem.write (getSummit w2 n).imem 0 ib ∧
        (getSummit t.work n).dmem = Mem.write (getSummit w2 n).dmem 0 db)

/-- SUMMIT_PARTY (R38, R39): a write that meets the conditions makes the Summit the leader of the Spurs it names, the other Summits
ganged to it, and each Spur it drops a party of its own, halted; one that does not is refused and sets CFG_REFUSED only. -/
def Obligations.PartyWritesFormParties : Prop :=
  ∀ (s : State) (b : Bank) (n : Nat) (v : W32), n < 16 → s.work.hold = none → s.bankOpen b →
    winUnit s (bankNo b) 6 = some n →
    let mask := fld v 0 16
    (partyOk s.work n mask (fld v 16 4) = true → ∃ t, exec (.summitPartyWrite b v) s = .next t ∧ State.sameBut s t ∧
      t.work = { s.work with summits := t.work.summits } ∧ (getSummit t.work n).state = (getSummit s.work n).state ∧
      (∀ k, k < 16 → mask / 2 ^ k % 2 = 1 → (getSummit t.work k).lead = n ∧ (getSummit t.work k).spurs = BitVec.ofNat 16 mask ∧
        (k ≠ n → (getSummit t.work k).state = .ganged)) ∧
      (∀ k ∈ partySpurs s.work n, mask / 2 ^ k % 2 ≠ 1 → (getSummit t.work k).lead = k ∧
        (getSummit t.work k).spurs = BitVec.ofNat 16 (2 ^ k) ∧ (getSummit t.work k).state = .halted) ∧
      (∀ k, k ∉ partySpurs s.work n → mask / 2 ^ k % 2 ≠ 1 → getSummit t.work k = getSummit s.work k)) ∧
    (partyOk s.work n mask (fld v 16 4) = false → ∃ t, exec (.summitPartyWrite b v) s = .next t ∧ State.sameBut s t ∧
      Work.onlySummit n s.work t.work ∧ getSummit t.work n = { getSummit s.work n with cfgRefused := true })

/-! ## Registers of BAR0: selects, widths, Belays -/

/-- A select write changes the selection of its own bank and of no other (R426, R427); of the value it keeps the bits the register has. A
select object written by its index is a write of that object by the bank's agent (R426). Registers of BAR0 (R443, R567): an access of
another width or alignment is discarded; a low half of a register that acts is held and acts on nothing, and the high half then acts
with both; a flag written as 1 is cleared, one written as 0 stays; a register that is read and written takes the value. A TLP of the host with
EP set does what it does without, and is reported (R448). -/
def Obligations.SelectAndRegisterWrites : Prop :=
  (∀ (s : State) (b : Bank) (k : Nat) (v : W32), s.work.hold = none → s.bankOpen b →
    (k < 7 → ∃ t, exec (.selectWrite b k v) s = .next t ∧ t.work = s.work ∧ t = { s with host := t.host } ∧
      selVal t (bankNo b) k = v.toNat &&& selMask k ∧
      (∀ i, i ≠ 32 * bankNo b + k → Tab.get u32D t.host.sel i = Tab.get u32D s.host.sel i)) ∧
    (∀ o, k ∈ selectObjects → findObj k 0 = some o → (odWrite s (bankAgent b) k 0 (natLe o.ty.size v.toNat)).work.hold = none →
      exec (.selectWrite b k v) s = .next (odWrite s (bankAgent b) k 0 (natLe o.ty.size v.toNat)))) ∧
  (∀ (s : State) (b : Bank), s.work.hold = none → s.bankOpen b →
    (∀ off width (v : W64), (width ≠ 4 ∧ width ≠ 8) ∨ off % width ≠ 0 → exec (.registerWrite b off width v) s = .next s) ∧
    (∀ off (v : W32), wideKind off = some .act → off % 4 = 0 → off < 0x10000 →
      ∃ t, exec (.bar0LowHalfWrite b off v) s = .next t ∧ t = { s with host := t.host } ∧ getHeld t (bankNo b) off = v.toNat ∧
        (∀ i, i ≠ heldKey (bankNo b) off → Tab.get u32D t.host.held i = Tab.get u32D s.host.held i)) ∧
    (∀ hi lo : W32, getHeld s (bankNo b) 0x9010 = lo.toNat →
      exec (.registerWrite b 0x9014 4 (BitVec.ofNat 64 hi.toNat)) s =
        exec (.belayPostRegister b (BitVec.ofNat 64 (hi.toNat * 2 ^ 32 + lo.toNat))) s) ∧
    (∀ c (v : W32), winUnit s (bankNo b) 0 = some c →
      ∃ t, exec (.registerWrite b 0x4110 4 (BitVec.ofNat 64 v.toNat)) s = .next t ∧ State.sameBut s t ∧
        Work.onlyCrag c s.work t.work ∧ getCrag t.work c =
          { getCrag s.work c with ex := { (getCrag s.work c).ex with
              fflags := (getCrag s.work c).ex.fflags &&& ~~~(BitVec.ofNat _ v.toNat) } }) ∧
    (∀ d (v : W32), winUnit s (bankNo b) 2 = some d →
      ∃ t, exec (.registerWrite b 0x6014 4 (BitVec.ofNat 64 v.toNat)) s = .next t ∧ State.sameBut s t ∧
        Work.onlySlice d s.work t.work ∧ getSlice t.work d = { getSlice s.work d with noAlloc := BitVec.ofNat 16 v.toNat })) ∧
  (∀ (s : State) (off width : Nat) (v : W64), s.host.d3hot = false →
    ∃ t, exec (.registerWrite .host off width v) s = .next t ∧ exec (.registerWrite .hostEp off width v) s = .next (poisonRx t))

/-- BELAY_POST and BELAY_SET (R280, R307): a post of the host waits for the BAR2 writes before it; with none it travels at once, as a
post of Basecamp does; an increment of 0 is ignored. BELAY_SET writes the value of a Belay without waiters and is refused on one that
has any. -/
def Obligations.BelayRegistersPostAndSet : Prop :=
  ∀ (s : State) (b : Bank) (k : Nat) (v : W64), s.work.hold = none → s.bankOpen b → winUnit s (bankNo b) 5 = some k →
    let inc := v.toNat % 2 ^ 32
    let sent := fun kind => { s.work with posts := s.work.posts ++
      [{ belay := k % 65536, inc := BitVec.ofNat 32 inc, sig := sigKind s.work kind, crag := none, reply := none }] }
    (inc ≠ 0 → (b = .host → s.work.bar2Acks = 0) →
      ∃ t, exec (.belayPostRegister b v) s = .next t ∧ t.work = sent (if b = .basecamp then 2 else 1) ∧
        t = { s with work := t.work, host := t.host }) ∧
    (inc = 0 → b ≠ .host → ∃ t, exec (.belayPostRegister b v) s = .next t ∧ t.work = s.work) ∧
    (b = .host → s.work.bar2Acks ≠ 0 → ∃ t, exec (.belayPostRegister b v) s = .next t ∧
      t.work = { s.work with hostWait := s.work.hostWait ++ [(s.work.bar2Acks, .post k inc)] }) ∧
    ((getBelay s.work k).waiters = [] → ∃ t, exec (.belaySet b v) s = .next t ∧
      t.work = setBelay s.work k { getBelay s.work k with value := v }) ∧
    ((getBelay s.work k).waiters ≠ [] → ∃ t, exec (.belaySet b v) s = .next t ∧
      t.work = setBelay s.work k { getBelay s.work k with refused := true })

/-! ## The cache -/

/-- Reads at a slice (R315, R316), at a line to which no earlier request waits: a hit on a line without a fill in flight delivers the sector and its poison and changes neither lines
nor data; a read that misses while its channel is held is put in flight, and one of a sector that is in flight joins it; the fill's end
delivers the block as memory gives it. -/
def Obligations.CacheReadsHitOrWaitForTheirFill : Prop :=
  (∀ (s : State) (pa cls ten : Nat) (bypass : Bool), pa < 2 ^ 48 → s.work.hold = none →
    let a := pa / 128 * 128
    let d := sliceOf a
    let x := getSlice s.work d
    let q : FillReq := { cls := cls % 4, ten := ten % 16, bypass := bypass }
    (∀ way, paStatus s.work a = .ok → lineWaits s.work a = false → hitWay x a = some way → fillOf x a = none → ∃ t, exec (.cacheRead pa cls ten bypass) s = .next t ∧
      State.sameBut s t ∧
      t.work.out = s.work.out ++ [.cacheData a (secData x (setOf a) way (sectorOf a))
        (getSec (getLine x (setOf a) way) (sectorOf a)).poison] ∧
      t.work.dram = s.work.dram ∧ (getSlice t.work d).lines = x.lines ∧ (getSlice t.work d).data = x.data ∧
      (getSlice t.work d).hits = bump x.hits 1 ∧ (∀ k, k ≠ d → getSlice t.work k = getSlice s.work k)) ∧
    (readWaits s.work pa = true → lineWaits s.work a = false → fillOf x a = none → x.fills.length < 4096 →
      ∃ t, exec (.cacheRead pa cls ten bypass) s = .next t ∧ State.sameBut s t ∧ Work.onlySlice d s.work t.work ∧
        getSlice t.work d = { x with fills := x.fills ++ [{ pa := a, ten := ten % 16, pre := false, reqs := [q] }] }) ∧
    (paStatus s.work a = .ok → lineWaits s.work a = false → filling x a = true →
      ∃ t, exec (.cacheRead pa cls ten bypass) s = .next t ∧ State.sameBut s t ∧ Work.onlySlice d s.work t.work ∧
        getSlice t.work d =
          { x with fills := x.fills.map fun f => if f.pa = a then { f with reqs := f.reqs ++ [q] } else f })) ∧
  (∀ (s : State) (d line sector : Nat) (f : Fill) (q : FillReq), d < 4 → s.work.hold = none →
    let a := line * 512 + sector % 4 * 128
    let x := getSlice s.work d
    let others := x.fills.filter fun g => g.pa ≠ a
    (x.fills.find? fun g => g.pa = a) = some f → f.pre = false → f.reqs = [q] → paStatus s.work a = .ok → ∀ w bs p,
    memRead (setSlice { s.work with waiting := [] } d { x with fills := others.filter fun g => g.pa / 512 ≠ line })
      { cls := q.cls, ten := q.ten, bypass := q.bypass, port := false } a = (w, bs, p) → w.hold = none →
    line ∉ (getSlice w d).cmoPend →
    let v := emit w (.cacheData a bs p)
    exec (.cacheFillDone d line sector) s = .next { s with work := { setSlice v d { getSlice v d with
      fills := (getSlice v d).fills ++ others.filter fun g => g.pa / 512 = line } with waiting := s.work.waiting } })

/-- A whole block written where it hits (R317): the block then reads as the data with its poison, from the cache; every other block
reads as before, and device memory is not written. -/
def Obligations.CacheWritesTheBlockTheyHit : Prop :=
  ∀ (s : State) (a way cls ten : Nat) (bypass poison : Bool) (data : List Byte), a < 2 ^ 48 → a % 128 = 0 → data.length = 128 →
    s.work.hold = none → s.work.mirror = 0 → s.work.inCache a way →
    ∃ t, exec (.cacheWrite a cls ten bypass data poison) s = .next t ∧ State.sameBut s t ∧ t.work.dram = s.work.dram ∧
      t.work.out = s.work.out ∧ peekBlock t.work a = (data, poison) ∧
      (∀ b, (sliceOf b, setOf b, tagOf b, sectorOf b) ≠ (sliceOf a, setOf a, tagOf a, sectorOf a) →
        peekBlock t.work b = peekBlock s.work b)

/-- Maintenance (R322 to R326): an operation that is not refused is BUSY until its end sets DONE; while
one is BUSY another is refused and nothing changes. INVALIDATE writes nothing to device memory, and by way it leaves no valid line in
a way without fills in flight or requests that wait (R324). -/
def Obligations.MaintenanceRunsAndRefuses : Prop :=
  ∀ (s : State) (b : Bank) (byWay : Bool) (way d op : Nat) (cmd : Instr), way < 16 → s.work.hold = none → s.bankOpen b →
    winUnit s (bankNo b) 2 = some d →
    (op, cmd) ∈ [(1, Instr.clean b byWay way), (2, Instr.invalidate b byWay way), (3, Instr.cleanInvalidate b byWay way),
      (4, Instr.zeroLine b byWay way)] →
    let x := getSlice s.work d
    (x.cmoBusy = true → ∃ t, exec cmd s = .next t ∧ State.sameBut s t ∧ Work.onlySlice d s.work t.work ∧
      getSlice t.work d = { x with cmoRefused := true }) ∧
    (x.cmoBusy = false → (byWay = true → op ≠ 4 ∧ x.wayPwr.getLsbD way = true ∧ x.waySweep.getLsbD way = false) →
      let w := cmoStart s.work d op byWay way (bankNo b)
      w.hold = none → exec cmd s = .next { s with work := w } ∧ (getSlice w d).cmoBusy = true ∧
        (op = 2 → w.dram = s.work.dram) ∧
        (op = 2 → byWay = true → x.fills = [] → s.work.waiting = [] → ∀ set, lineValid (getLine (getSlice w d) set way) = false)) ∧
    (d < 4 → x.cmoBusy = true → x.cmoPend = [] → ∃ t, exec (.cmoDone d) s = .next t ∧ State.sameBut s t ∧ Work.onlySlice d s.work t.work ∧
      getSlice t.work d = { x with cmoBusy := false, cmoDone := true })

/-- Ways (R328 to R330, R334): a write that would enable a retired way is refused; one that is taken sets CD_WAYEN, under WPM=H with the
changed ways swept; CD_WAYPWR sets the powered ways; a sweep's end clears its way's bit and powers the way as it is enabled. -/
def Obligations.WaysAreEnabledPoweredAndSwept : Prop :=
  ∀ (s : State) (b : Bank) (d : Nat) (v : W32), s.work.hold = none → s.bankOpen b → winUnit s (bankNo b) 2 = some d →
    let x := getSlice s.work d
    let new := BitVec.ofNat 16 v.toNat
    let off := x.wayEn &&& ~~~new
    let on := new &&& ~~~x.wayEn
    let only := fun (t : State) => State.sameBut s t ∧ Work.onlySlice d s.work t.work
    (new &&& x.wayRet ≠ 0 → ∃ t, exec (.wayenWrite b v) s = .next t ∧ only t ∧ getSlice t.work d = { x with refused := true }) ∧
    (new &&& x.wayRet = 0 →
      (x.wpmS = true → dirtyLines x off = 0 → ∃ t, exec (.wayenWrite b v) s = .next t ∧ only t ∧
        (getSlice t.work d).wayEn = new ∧ (getSlice t.work d).wayPwr = x.wayPwr ∧
        (∀ set way, way < 16 → off.getLsbD way = false → getLine (getSlice t.work d) set way = getLine x set way)) ∧
      (x.wpmS = false → on &&& x.waySweep = 0 → ∃ t, exec (.wayenWrite b v) s = .next t ∧ only t ∧
        getSlice t.work d = { x with wayEn := new, waySweep := x.waySweep ||| off ||| on, wayInit := x.wayInit ||| on,
                                     wayPwr := x.wayPwr ||| on })) ∧
    (x.wpmS = true → (x.wayPwr &&& ~~~new) &&& x.wayEn = 0 → new &&& x.wayRet = 0 →
      ∃ t, exec (.waypwrWrite b v) s = .next t ∧ only t ∧ (getSlice t.work d).wayPwr = new ∧
        (getSlice t.work d).wayEn = x.wayEn) ∧
    (∀ k, k < 16 → d < 4 → x.waySweep.getLsbD k = true → (sweepWays s.work d (BitVec.ofNat 16 (2 ^ k))).hold = none →
      let w := sweepWays s.work d (BitVec.ofNat 16 (2 ^ k))
      ∃ t, exec (.waySweepDone d k) s = .next t ∧ State.sameBut s t ∧ Work.onlySlice d w t.work ∧
        (getSlice t.work d).waySweep.getLsbD k = false ∧ (getSlice t.work d).wayInit.getLsbD k = false ∧
        (getSlice t.work d).wayPwr.getLsbD k = (getSlice w d).wayEn.getLsbD k)

/-- Enabling, disabling and sparing (R331, R334): a slice is enabled at once, its ways swept first under WPM=H; a disable begins a sweep
under WPM=H and acts at once on a clean slice under WPM=S; the sweep's end leaves it in pass-through. A bank that has failed (R515) is mapped to its
group's spare, or its way retired when the spare is in use; nothing is done to one that has not. -/
def Obligations.SlicesAreEnabledDisabledAndSpared : Prop :=
  ∀ (s : State) (b : Bank) (d : Nat), s.work.hold = none → s.bankOpen b → winUnit s (bankNo b) 2 = some d → d < 4 →
    let x := getSlice s.work d
    let only := fun (t : State) => State.sameBut s t ∧ Work.onlySlice d s.work t.work
    (x.sweep = false → x.enabled = false → ∃ t, exec (.sliceEnable b) s = .next t ∧ only t ∧
      getSlice t.work d = (if x.wpmS then { x with enabled := true }
        else { x with enabled := true, waySweep := x.wayEn, wayInit := x.wayEn, wayPwr := x.wayEn })) ∧
    (∀ force, x.enabled = true →
      (x.wpmS = false → ∃ t, exec (.sliceDisable b force) s = .next t ∧ only t ∧
        getSlice t.work d = { x with sweep := true, waySweep := x.waySweep ||| x.wayEn }) ∧
      (x.wpmS = true → dirtyLines x (BitVec.allOnes 16) = 0 → ∃ t, exec (.sliceDisable b force) s = .next t ∧ only t ∧
        (getSlice t.work d).enabled = false)) ∧
    (x.sweep = true → (sweepWays s.work d (BitVec.allOnes 16)).hold = none →
      ∃ t, exec (.sliceSweepDone d) s = .next t ∧ State.sameBut s t ∧
        Work.onlySlice d (sweepWays s.work d (BitVec.allOnes 16)) t.work ∧
        (getSlice t.work d).enabled = false ∧ (getSlice t.work d).sweep = false ∧ (getSlice t.work d).waySweep = 0) ∧
    (∀ g pos, g < 32 → pos < 20 → bankFails s (bankKey d g pos) = false → exec (.bankSpare d g pos) s = .next s) ∧
    (∀ g pos, g < 32 → pos < 20 → bankFails s (bankKey d g pos) = true → x.wayRet.getLsbD (g / 2) = false →
      let w := sweepWays s.work d (BitVec.ofNat 16 (2 ^ (g / 2)))
      w.hold = none → ∃ t, exec (.bankSpare d g pos) s = .next t ∧ t = { s with work := t.work, misc := t.misc } ∧
        (Tab.get grpD x.grpMap g = 0x1F →
          Tab.get grpD (getSlice t.work d).grpMap g = BitVec.ofNat 6 pos ∧ (getSlice t.work d).wayRet = (getSlice w d).wayRet ∧
          Tab.get zeroD t.misc.bankUsed (d + 1) = Tab.get zeroD s.misc.bankUsed (d + 1) + 1) ∧
        (Tab.get grpD x.grpMap g ≠ 0x1F → (getSlice t.work d).wayRet.getLsbD (g / 2) = true ∧
          (getSlice t.work d).wayEn.getLsbD (g / 2) = false ∧
          Tab.get zeroD t.misc.bankUsed (d + 1) = Tab.get zeroD s.misc.bankUsed (d + 1)))

/-! ## The memory channels -/

/-- A block read at a channel, for a request or by the patrol scrub (R351 to R353, R356): without symbols in error the request gets the
block and nothing is counted but its bytes; a scrub writes a corrected block back, so that no error stands in it; an uncorrectable one is
delivered as zeros with poison, counted, and stays as stored. -/
def Obligations.ChannelReadsDeliverAndCount : Prop :=
  ∀ (s : State) (c x a : Nat) (err : List (Nat × Byte)) (w : Work) (r : EccRead), c < 24 → x % 128 = 0 → 0x2000000 ≤ x →
    x < 2 ^ 35 → s.work.hold = none → (getCh s.work c).state = 2 →
    (getCh s.work c).rowsHeld.any (fun q => q.on && decide (q.row = x / 8192)) = false → showErrs s.work c x err = w →
    eccRead w c x = r → paOf s.work c x = some a →
    (r.ue = false → r.fix0 = [] → r.fix1 = [] →
      exec (.dramRead c x err) s = .next { s with work := emit (meterDram w (req 2 0)) (.cacheData a r.data r.poison) } ∧
      exec (.patrolScrub c x err) s = .next { s with work := meterDram w (req 3 0) }) ∧
    (r.ue = false → r.fix0 ++ r.fix1 ≠ [] → ∃ t, exec (.patrolScrub c x err) s = .next t ∧ State.sameBut s t ∧
      t.work.out = s.work.out ∧ errsAt t.work c (remapX (getCh s.work c) x) = [] ∧
      rawBlock t.work c (remapX (getCh s.work c) x) = (if r.poison then marker else r.data)) ∧
    (r.ue = true →
      (∃ t, exec (.dramRead c x err) s = .next t ∧ State.sameBut s t ∧
        t.work.out = s.work.out ++ [.cacheData a (zeros 128) true] ∧ t.work.dram = s.work.dram ∧
        (getCh t.work c).ue = bump (getCh s.work c).ue 1 ∧ (getCh t.work c).chUe = bump (getCh s.work c).chUe 1) ∧
      (∃ t, exec (.patrolScrub c x err) s = .next t ∧ State.sameBut s t ∧ t.work.out = s.work.out ∧
        t.work.dram = s.work.dram ∧ (getCh t.work c).ue = bump (getCh s.work c).ue 1))

/-- ROW_REMAPPED (R362): the row's copy is complete; it lies in a spare row, its entry is valid, and every block of it reads as it did
before, as zeros with poison where it was uncorrectable, and without errors that stand. -/
def Obligations.RemappedRowsReadAsBefore : Prop :=
  ∀ (s : State) (c row sp k : Nat) (r : RowHold) (rest : List RowHold), c < 24 → s.work.hold = none →
    (getCh s.work c).rowsHeld = r :: rest → r.row = row → freeSpare (getCh s.work c) = some sp →
    entryOf (getCh s.work c) row = none → freeEntry (getCh s.work c) = some k → row ≠ sp →
    ∃ t, exec (.rowRemapped c) s = .next t ∧ State.sameBut s t ∧ (getCh t.work c).rowsHeld = rest ∧
      (Tab.get remapD (getCh t.work c).remaps k).valid = true ∧ (Tab.get remapD (getCh t.work c).remaps k).row = row ∧
      (Tab.get remapD (getCh t.work c).remaps k).spare = sp ∧ sp ∈ (getCh t.work c).spareUsed ∧
      (∀ i, i < 64 →
        (eccRead t.work c (8192 * row + 128 * i)).data = (eccRead s.work c (8192 * row + 128 * i)).data ∧
        (eccRead t.work c (8192 * row + 128 * i)).poison = (eccRead s.work c (8192 * row + 128 * i)).poison ∧
        (eccRead t.work c (8192 * row + 128 * i)).ue = false) ∧
      (∀ j, j ≠ c → getCh t.work j = getCh s.work j)

/-- Retraining (R357 to R361): a retrain holds an online channel and is refused on one that failed, is offline or runs its generator; an
emergency one follows once a due retrain was not planned in time; its end brings the channel online with its time and temperature
recorded, or fails the channel; a temperature that moved too far makes a retrain due. -/
def Obligations.ChannelsRetrain : Prop :=
  ∀ (s : State) (c : Nat), c < 24 → s.work.hold = none →
    let m := getCh s.work c
    let only := fun (t : State) => State.sameBut s t ∧ Work.onlyCh c s.work t.work
    (∀ b, s.bankOpen b → winUnit s (bankNo b) 1 = some c →
      (m.state = 4 ∨ m.state = 5 ∨ m.tgBusy = true → ∃ t, exec (.retrain b) s = .next t ∧ only t ∧
        getCh t.work c = { m with refused := true }) ∧
      (m.state = 2 → m.tgBusy = false → ∃ t, exec (.retrain b) s = .next t ∧ only t ∧
        getCh t.work c = { m with state := 3, retrain := true, holdAt := s.work.now, wq := [] })) ∧
    (m.due = true → m.dueSince.toNat + od s.work 0x2345 ≤ s.work.now.toNat → retrainPlanned s c = false → m.retrain = false →
      m.state = 2 → m.tgBusy = false → ∃ t, exec (.emergencyRetrain c) s = .next t ∧ State.sameBut s t ∧
        getCh t.work c = { m with emerg := true, state := 3, retrain := true, holdAt := s.work.now, wq := [] } ∧
        (∀ j, j ≠ c → getCh t.work j = getCh s.work j)) ∧
    (m.retrain = true → m.again = false → m.pprQueue = [] → ∃ t, exec (.retrainDone c true) s = .next t ∧ only t ∧
      (getCh t.work c).state = 2 ∧ (getCh t.work c).retrain = false ∧ (getCh t.work c).trained = true ∧
      (getCh t.work c).due = false ∧ (getCh t.work c).lastTrain = s.work.now ∧ (getCh t.work c).trainTemp = m.temp) ∧
    (m.retrain = true → ∃ t, exec (.retrainDone c false) s = .next t ∧ State.sameBut s t ∧ (getCh t.work c).state = 5 ∧
      (getCh t.work c).trainFail = true ∧
      t.work.faultQ = s.work.faultQ ++ [faultMsg s.work.now (srcCh c) 0x44 0 0]) ∧
    (∀ temp : Int, m.trained = true → m.due = false → ∃ t, exec (.retrainDue c temp) s = .next t ∧ only t ∧
      (getCh t.work c).temp = temp ∧ ((getCh t.work c).due = decide (od s.work 0x2346 < (temp - m.trainTemp).natAbs)))

/-- A channel is taken offline outside Ready and Run and brought online when it has trained (R367); a device is marked, once a rank, and
unmarked (R353, R354); hPPR holds the channel for its pending rows, and its success frees the entry and its spare row (R365). The
traffic generator (R368): GO starts a run on an offline channel, with its results cleared, and is refused on any other; the end of a
run that only writes counts its blocks and sets DONE. -/
def Obligations.ChannelsOfflineMarksRepairAndTest : Prop :=
  (∀ (s : State) (b : Bank) (c : Nat), c < 24 → s.work.hold = none → s.bankOpen b → winUnit s (bankNo b) 1 = some c →
    let m := getCh s.work c
    let only := fun (t : State) => State.sameBut s t ∧ Work.onlyCh c s.work t.work
    (s.work.dstate = .stopped → ∃ t, exec (.offline b) s = .next t ∧ only t ∧ (getCh t.work c).state = 4) ∧
    (s.work.dstate = .run → ∃ t, exec (.offline b) s = .next t ∧ only t ∧ getCh t.work c = { m with refused := true }) ∧
    (m.state = 4 → m.trained = true → ∃ t, exec (.online b) s = .next t ∧ only t ∧
      getCh t.work c = { m with state := if m.pprQueue = [] then 2 else 3, tgBusy := false }) ∧
    (∀ rank dev, rank < 2 → dev < 5 → markOf m rank = 7 → ∃ t, exec (.mark b rank dev) s = .next t ∧ State.sameBut s t ∧
      markOf (getCh t.work c) rank = dev ∧ (∀ k, k ≠ rank → markOf (getCh t.work c) k = markOf m k) ∧
      (∀ j, j ≠ c → getCh t.work j = getCh s.work j)) ∧
    (∀ rank, rank < 2 → ∃ t, exec (.unmark b rank) s = .next t ∧ only t ∧ markOf (getCh t.work c) rank = 7 ∧
      (∀ k, k ≠ rank → markOf (getCh t.work c) k = markOf m k)) ∧
    (∀ k e, m.state = 2 → m.pprQueue = [] → m.remaps = [(k, e)] → e.valid = true → e.pending = true →
      ∃ t, exec (.ppr b) s = .next t ∧ only t ∧
        getCh t.work c = { m with pprQueue := [k], state := 3, holdAt := s.work.now, wq := [] }) ∧
    (∀ k, k ∈ m.pprQueue → ∃ t, exec (.pprDone c k true) s = .next t ∧
      (Tab.get remapD (getCh t.work c).remaps k) = remapD k ∧
      (Tab.get remapD m.remaps k).spare ∉ (getCh t.work c).spareUsed ∧ k ∉ (getCh t.work c).pprQueue ∧
      Tab.get zeroD t.misc.pprUsed (c + 1) = Tab.get zeroD s.misc.pprUsed (c + 1) + 1)) ∧
  (∀ (s : State) (c : Nat), c < 24 → s.work.hold = none →
    let m := getCh s.work c
    let only := fun (t : State) => State.sameBut s t ∧ Work.onlyCh c s.work t.work
    (∀ b ctrl, s.bankOpen b → winUnit s (bankNo b) 1 = some c → m.tgBusy = false →
      (m.state = 4 → ∃ t, exec (.tgGo b ctrl) s = .next t ∧ only t ∧ (getCh t.work c).tgBusy = true ∧
        (getCh t.work c).tgCount = 0 ∧ (getCh t.work c).tgErrs = 0 ∧ (getCh t.work c).tgDone = m.tgDone) ∧
      (m.state ≠ 4 → ∃ t, exec (.tgGo b ctrl) s = .next t ∧ only t ∧ (getCh t.work c).tgBusy = false ∧
        (getCh t.work c).tgRefused = true)) ∧
    (∀ flips, m.tgBusy = true → m.state = 4 → fld m.tgCtrl 6 2 = 1 → ∃ t, exec (.tgDone c flips) s = .next t ∧ State.sameBut s t ∧
      (getCh t.work c).tgBusy = false ∧ (getCh t.work c).tgDone = true ∧ (getCh t.work c).tgErrs = m.tgErrs ∧
      (getCh t.work c).tgCount = bump m.tgCount m.tgLen.toNat ∧ (∀ j, j ≠ c → getCh t.work j = getCh s.work j)))
/-! ## Update Units -/

/-- An Update Unit applies the first update of its queue to the slot at its home and counts the row, and the op that sent it gets its
acknowledgement (R246, R249). A migration copies the whole slot when its claim is acknowledged, switches the forwarding entry when the
copy is, and is over when the switch is (R258). Ops that waited for the unit's hold or for the Scheduler are tried again after it
(R259, R292). -/
def Obligations.UpdatesApplyAndMigrationsMoveRows : Prop :=
  ∀ (s : State) (u : Nat), u < 8 → s.work.hold = none →
    let m := getUpd s.work u
    (∀ x rest, m.queue = x :: rest → updRuns s.work = true → x.opc ≠ 0x7E → migOf m x = none → eFwd x.dirEnt = false →
      let a := homeSlot x.dirEnt x.idx
      ∀ w bs v, vRead (setUpd s.work u { m with queue := rest, served := x.ten }) (.upd u) (updReq x.ten) a (eSlot x.dirEnt) =
          (w, bs, false, none) →
        vWrite w (.upd u) (updReq x.ten) a (updSlot x bs) false = (v, none) → v.hold = none →
        let y := getUpd v u
        ∃ t, exec (.updateUnitApply u) s = .next t ∧ State.sameBut s t ∧
          t.work = retryPuts (eupdAck (setUpd v u { y with rowsDone := bump y.rowsDone 1,
                                                           slotBytes := bump y.slotBytes (eSlot x.dirEnt) }) x.crag x.op true)) ∧
    (∀ g, m.migs = [g] →
      (g.phase = 0 → updRuns s.work = true → ∀ w bs po v, vRead s.work (.upd u) (updReq g.ten) g.srcAt (eSlot g.dirEnt) = (w, bs, po, none) →
        vWrite w (.upd u) (updReq g.ten) g.dst bs po = (v, none) → v.hold = none → (getUpd v u).migs = [g] →
        exec (.migrateClaimAck u g.row) s =
          .next { s with work := setUpd v u { getUpd v u with served := g.ten, migs := [{ g with phase := 1 }] } }) ∧
      (g.phase = 1 → updRuns s.work = true → g.state = 1 → g.held = [] →
        let w := writeEntry s.work u g.ten g.bucketAt g.row 2 g.dst
        w.hold = none → (getUpd w u).migs = [g] → exec (.migrateCopyAck u g.row) s = .next { s with
          work := retryPuts (setUpd w u { getUpd w u with served := g.ten, migs := [{ g with phase := 2, held := [] }] }) }) ∧
      (g.phase = 2 → ∃ t, exec (.migrateSwitchAck u g.row) s = .next t ∧ State.sameBut s t ∧ (getUpd t.work u).migs = [] ∧
        (getUpd t.work u).queue = m.queue ∧ t.work.dram = s.work.dram))

/-! ## Installation Time -/

/-- Offset measurements (R374, R375, R378, Table 12.2): an edge of REF_1PPS and the time of a PTP master each give one. A locked IT
slews within the limit, steps forward beyond it, and beyond it backward is DIVERGED, keeping its count; sixteen good ones in a row lock
an IT that acquires. -/
def Obligations.OffsetsSlewStepOrDiverge : Prop :=
  (∀ (s : State) (r : W64) (ns : Int), itSource s = 1 → s.it.refSec = some r →
    let sec := if s.it.refNew then r else r + 1 + BitVec.ofNat 64 (missedEdges s.it)
    exec (.ref1ppsEdge true ns) s = .next (Machine.measure
      { s with it := { s.it with edgeAge := 0, refSec := some sec, refNew := false } }
      ((sec.toNat : Int) * 1000000000 - (s.work.now.toNat : Int) * 100 + ns))) ∧
  (∀ (s : State) (master : W64) (t1 t2 : Nat), fromMaster s master = true →
    let m := Machine.measure { s with it := { s.it with ptpLastT1 := t1, ptpLastT2 := t2, ptpT1 := none, syncAge := 0 } }
      ((t1 : Int) + s.it.ptpDelay - (t2 : Int))
    exec (.ptpSync master (od s.work 0x800B) false t1 t2) s = .next m ∧
    (s.it.ptpT1 = some t2 → exec (.ptpFollowUp master t1) s = .next m) ∧
    exec (.ptpSync master (od s.work 0x800B) true t1 t2) s = .next { s with it := { s.it with ptpT1 := some t2 } }) ∧
  (∀ (s : State) (off : Int),
    (Machine.measure s off).it.offset = off ∧ (Machine.measure s off).pending = s.pending ∧
    (s.it.state = .locked → off.natAbs ≤ (slewLimit s).natAbs → (Machine.measure s off).it.state = .locked ∧
      (Machine.measure s off).it.slew = off * 1000 ∧ (Machine.measure s off).work = s.work) ∧
    (s.it.state = .locked → slewLimit s < off → (Machine.measure s off).it.state = .locked ∧
      (Machine.measure s off).it.slew = off % 100 * 1000 ∧
      (Machine.measure s off).work = { s.work with now := BitVec.ofNat 64 (s.work.now.toNat + (off / 100).toNat) }) ∧
    (s.it.state = .locked → off < -(slewLimit s) → (Machine.measure s off).it.state = .diverged ∧
      (Machine.measure s off).work.now = s.work.now ∧
      (Machine.measure s off).work.faultQ = s.work.faultQ ++ [faultMsg s.work.now srcIt 0x72 0 (ofInt 32 off)]) ∧
    (s.it.state = .acquiring → off.natAbs ≤ 100 → -(slewLimit s) ≤ off → 15 ≤ s.it.good → (Machine.measure s off).it.state = .locked) ∧
    (s.it.state = .acquiring → off.natAbs ≤ 100 → -(slewLimit s) ≤ off → s.it.good < 15 →
      (Machine.measure s off).it.state = .acquiring ∧ (Machine.measure s off).it.good = s.it.good + 1))

/-- The rest of Installation Time (R373, R375, R378, R387, R535, R564; PTP after log entry 33): lost sources and holdover, delay
exchanges and masters, STEP, ITRefSeconds and ITSource, SYSCLK's return, the latched half of IT_NOW, and TIME_PPS_OUT. -/
def Obligations.InstallationTimeCommands : Prop :=
  ∀ (s : State),
    (lossHolds s true = true → s.it.state = .locked → ∃ t, exec .itSourceLost s = .next t ∧
      t.it.state = .holdover ∧ t.it.good = 0 ∧ t.it.holdFor = 0 ∧ t.work = raise s.work srcIt 0x70 0 0 ∧
      t.misc.holdover = BitVec.allOnes 16) ∧
    (lossHolds s true = false → exec .itSourceLost s = .next s) ∧
    (s.it.state = .holdover → od s.work 0x8005 ≤ s.it.holdFor → ∃ t, exec .itExpired s = .next t ∧ t.it.state = .expired ∧
      t.work.faultQ = s.work.faultQ ++ [faultMsg s.work.now srcIt 0x71 0 0] ∧ t.work.now = s.work.now) ∧
    (∀ t3 m, itSource s = 2 → s.it.ptpMaster = some m → ∃ t, exec (.delayReqSend t3) s = .next t ∧
      t.it = { s.it with ptpT3 := some t3 } ∧ t.work = emit s.work .ptpDelayReq) ∧
    (∀ master t3 t4, fromMaster s master = true → s.it.ptpT3 = some t3 → ∃ t, exec (.ptpDelayResp master t4) s = .next t ∧
      t.work = s.work ∧ t.it.ptpDelay = (((s.it.ptpLastT2 : Int) - s.it.ptpLastT1) + ((t4 : Int) - t3)) / 2) ∧
    (∀ m, s.it.ptpMaster = none → exec (.ptpAnnounce (od s.work 0x800B) m) s =
      .next { s with it := { s.it with ptpMaster := some m, announceAge := 0 } }) ∧
    (∀ b, s.objectsOpen b →
      (s.it.state = .diverged → s.work.dstate = .stopped → ∃ t, exec (.step b) s = .next t ∧ t.it.state = .locked ∧
        t.work = { s.work with now := BitVec.ofNat 64 (((s.work.now.toNat : Int) + min s.it.offset 0 / 100).toNat) }) ∧
      (s.work.dstate = .run → exec (.step b) s = .next s) ∧
      (∀ v, exec (.itrefsecondsWrite b v) s = .next { s with it := { s.it with refSec := some v, refNew := true } }) ∧
      (∀ v, v ≤ 4 → s.work.dstate = .preOp → ∃ t, exec (.itsourceWrite b v) s = .next t ∧ od t.work 0x8001 = v ∧
        t.it.state = .acquiring ∧ t.it.good = 0 ∧ t.work = { s.work with od := t.work.od })) ∧
    (s.it.sysclk = false → od s.work 0x8001 ≠ 0 → exec .sysclkReturn s =
      .next { s with it := { s.it with sysclk := true, state := .acquiring, good := 0 } }) ∧
    (∃ t, exec (.itRegisterLowRead 0x40) s = .next t ∧ t.work = s.work ∧
      Tab.get (bvD 32) t.it.lowLatch 0x40 = BitVec.ofNat 32 (s.work.now.toNat / 2 ^ 32)) ∧
    (s.work.now.toNat % 10000000 < 1000000 → s.it.ppsHigh = false → exec .timePpsOut s =
      .next { s with it := { s.it with ppsHigh := true }, work := emit s.work (.pin "TIME_PPS_OUT" true) })

/-- The Event Table (R381 to R384): a write of the entry that the agent has selected is taken unless it is too close to its tick,
reserved or Basecamp's; the first due entry fires, its action runs, and it is freed, or moved by its period beyond IT. -/
def Obligations.EventsAreWrittenAndFire : Prop :=
  (∀ (s : State) (b : Bank) (v : BitVec 256), s.objectsOpen b →
    let k := selObj s (bankAgent b).bank 0x8010
    let soon := fun (e : EvEntry) => e.action ≠ 0 ∧ e.tick.toNat ≤ s.work.now.toNat + 10
    (soon (parseEvent v) ∨ soon (Tab.get evD s.ev.table k) → exec (.eventEntryWrite b v) s = .next s) ∧
    (¬ soon (parseEvent v) → ¬ soon (Tab.get evD s.ev.table k) → eventReserved v = false →
      (b ≠ .basecamp → (parseEvent v).bcamp = false ∧ (Tab.get evD s.ev.table k).bcamp = false) →
      ∃ t, exec (.eventEntryWrite b v) s = .next t ∧ t = { s with ev := { s.ev with table := t.ev.table } } ∧
        Tab.get evD t.ev.table k = parseEvent v ∧ (∀ j, j ≠ k → Tab.get evD t.ev.table j = Tab.get evD s.ev.table j))) ∧
  (∀ (s : State) (k : Nat), k < 4096 → eventFirst s k = true →
    let e := Tab.get evD s.ev.table k
    e.bcamp = false →
    (e.action = 1 → e.period = 0 → ∃ t, exec (.eventFire k) s = .next t ∧ t = { s with ev := t.ev } ∧
      Tab.get evD t.ev.table k = EvEntry.free ∧ (∀ j, j ≠ k → Tab.get evD t.ev.table j = Tab.get evD s.ev.table j) ∧
      t.ev.snapTick = e.tick ∧ t.ev.snapSeq = s.ev.snapSeq + 1 ∧ t.ev.view = s.ev.view) ∧
    (e.action = 8 → e.arg1 ≠ 0 → e.rept = 0 → 0 < e.period.toNat → e.tick.toNat + (s.work.now.toNat - e.tick.toNat) +
        e.period.toNat < 2 ^ 64 → ∃ t, exec (.eventFire k) s = .next t ∧
      t.work.posts = s.work.posts ++ [{ belay := e.arg0.toNat, inc := e.arg1, sig := sigKind s.work 2, crag := none, reply := none }] ∧
      s.work.now.toNat < (Tab.get evD t.ev.table k).tick.toNat ∧
      (Tab.get evD t.ev.table k).tick.toNat ≤ s.work.now.toNat + e.period.toNat ∧
      (Tab.get evD t.ev.table k).action = 8 ∧ (∀ j, j ≠ k → Tab.get evD t.ev.table j = Tab.get evD s.ev.table j)))

/-! ## Tenancies, energy -/

/-- TenCtrl (R390 to R392, R399, R404): ENABLE of a FREE tenancy whose ranges and Spurs do not collide makes it ACTIVE, its meters zero
and its Summits' memories cleared; DISABLE frees it, with one more usage record; RESET leaves it ACTIVE and counts one reset; what the state
does not allow changes nothing. Only the tenancy that the agent selected is invalidated by TenXlateInval. Each completes where it has no
task to return or discard and no update to finish, and wherever the memory accesses of these meet no hold. -/
def Obligations.TenanciesAreEnabledDisabledAndReset : Prop :=
  ∀ (s : State) (b : Bank) (k : Nat), s.objectsOpen b → selObj s (bankAgent b).bank 0x4000 = k → k < 16 → s.work.hold = none →
    let x := getTen s.work k
    (x.state = 0 → enableOk s.work k = true →
      s.work.noTasks k ∨ (transferSpurs s.work (maskList 16 (tenSpursObj s.work k))).hold = none → ∃ t, exec (.tenancyEnable b) s = .next t ∧ (getTen t.work k).state = 1 ∧
      (getTen t.work k).activeCyc = 0 ∧ (getTen t.work k).energy = 0 ∧ (getTen t.work k).startIt = s.work.now ∧
      (∀ n ∈ maskList 16 (tenSpursObj s.work k), (getSummit t.work n).imem = [] ∧ (getSummit t.work n).dmem = [])) ∧
    (x.state = 0 → enableOk s.work k = false → exec (.tenancyEnable b) s = .next s) ∧
    (x.state ≠ 1 → exec (.tenancyReset b) s = .next s ∧ exec (.tenancyDisable b) s = .next s) ∧
    (x.state = 1 → (s.work.noTasks k ∧ s.work.upds = []) ∨ (tenResetCore s.work k).hold = none →
      (∃ t, exec (.tenancyReset b) s = .next t ∧ (getTen t.work k).state = 1 ∧
      (getTen t.work k).resets = bump x.resets 1 ∧ (getTen t.work k).recSeq = x.recSeq) ∧
      (k ≠ 0 → ∃ t, exec (.tenancyDisable b) s = .next t ∧ (getTen t.work k).state = 0 ∧
        (getTen t.work k).recSeq = x.recSeq + 1)) ∧
    exec (.xlateInval b) s = .next { s with work := invalXlate s.work k }

/-- Energy and clocks (R402, R529 to R532): the package's energy of a millisecond is added to its meter, and to tenancy 0 where no
tenancy moved a byte; once in a millisecond the request for clock eighths becomes the largest whose power is within the limit, or a larger
one that loans of Crags in Bivouac allow, and a request below 8 is reported (log entry 136); a dip of VDD_CORE asks for four eighths until it has
been over for 100 microseconds, and heat for fewer, and both report it; rails that fail are reported and switched off, by a Basecamp that restarts
once it is back (R525). -/
def Obligations.EnergyDipsHeatAndRails : Prop :=
  ∀ (s : State),
    (∀ uj, (∀ k, k < 16 → (getTen s.work k).dramMs = 0) → ∃ t, exec (.energyMeasure uj []) s = .next t ∧
      t.pwr = { s.pwr with powerNow := BitVec.ofNat 32 uj, pkgEnergy := bump s.pwr.pkgEnergy ((s.pwr.pkgFrac + uj) / 1000),
                           pkgFrac := (s.pwr.pkgFrac + uj) % 1000 } ∧
      (getTen t.work 0).energy = bump (getTen s.work 0).energy (((getTen s.work 0).energyFrac + uj) / 1000) ∧
      t.work = { s.work with tens := t.work.tens }) ∧
    (∀ powers lent, limitDue s = false → exec (.powerLimitRequest powers lent) s = .next s) ∧
    (∀ powers lent, limitDue s = true → ∃ t, exec (.powerLimitRequest powers lent) s = .next t ∧
      t.pwr = { s.pwr with kPower := t.pwr.kPower, limitAt := some s.work.now, limitCyc := 0 } ∧
      2 ≤ t.pwr.kPower ∧ t.pwr.kPower ≤ 8 ∧ largestK (powerLimit s.work) powers ≤ t.pwr.kPower ∧
      (∀ p, powers[6]? = some p → p ≤ powerLimit s.work → t.pwr.kPower = 8 ∧ t.work = s.work) ∧
      (loansMade s.work = false → t.pwr.kPower = largestK (powerLimit s.work) powers ∧
        t.work = if t.pwr.kPower < 8 then raise s.work srcPower 0x85 0 s.pwr.limitCyc else s.work) ∧
      t.work.faultQ = (if t.pwr.kPower < 8 then (raise s.work srcPower 0x85 0 s.pwr.limitCyc).faultQ else s.work.faultQ)) ∧
    exec .vddCoreDip s = .next { s with pwr := { s.pwr with
      kDip := 4, dipAt := if s.pwr.kDip = 8 then s.work.now else s.pwr.dipAt, dipLow := s.work.now } } ∧
    (∀ us, dipOver s us.toNat = true → exec (.dipRecovery us) s = .next { s with
      work := raise s.work srcPower 0x80 0 (dipUs s).toNat
      pwr := { s.pwr with kDip := 8, dips := s.pwr.dips + 1, dipLast := dipUs s } }) ∧
    (∀ us, dipOver s us.toNat = false → exec (.dipRecovery us) s = .next s) ∧
    (∀ m us, 8 ≤ m → m < 24 → s.pwr.railsUp = true →
      exec (.railWarnEnd m us) s = .next { s with work := raise s.work (srcVolt m) 0x80 0 us.toNat }) ∧
    (∀ m (mv : BitVec 16), m < 24 → m ≠ 20 → m ≠ 21 → mv.toNat < (railLimits m).1 → s.pwr.railsUp = true →
      ∃ t, exec (.supplyFail m mv) s = .next t ∧
        (basecampUp s = false → t.work = raise s.work (srcVolt m) 0x81 0 mv.toNat ∧ t.pwr.railsUp = true ∧ t.pwr.offDue = true) ∧
        Tab.get (fun _ => none) t.pwr.railMv m = some mv ∧ (basecampUp s = true → t.pwr.railsUp = false ∧ t.work.summits = [] ∧
          (s.work.crags = [] → t.work.faultQ = s.work.faultQ ++ [faultMsg s.work.now (srcVolt m) 0x81 0 mv.toNat]))) ∧
    (∀ temp : Int, temp < 95 → 92 ≤ temp → s.pwr.thermMs < 9 → ∃ t, exec (.thermalRead [temp]) s = .next t ∧
      t.work = s.work ∧ t.pwr.hottest = temp ∧ Tab.get tempD t.pwr.temps 0 = temp ∧ t.pwr.kTherm = s.pwr.kTherm) ∧
    (∀ temp : Int, 105 ≤ temp → temp < 115 → 9 ≤ s.pwr.thermMs → 2 < s.pwr.kTherm → s.pwr.warnArmed = false →
      ∃ t, exec (.thermalRead [temp]) s = .next t ∧ t.pwr.kTherm = s.pwr.kTherm - 1 ∧ t.pwr.throttled = true) ∧
    (∀ temp : Int, 115 ≤ temp → s.pwr.tripN = false → ∃ t, exec (.thermalRead [temp]) s = .next t ∧ t.pwr.tripN = true ∧
      t.pwr.tripLeft = some 600000000 ∧ (s.pwr.railsUp = true → basecampUp s = true → t.pwr.railsUp = false)) ∧
    (tripOver s = true → exec .tripHoldoffExpiry s = .next { s with pwr := { s.pwr with tripLeft := none } }) ∧
    (tripOver s = false → exec .tripHoldoffExpiry s = .next s)

/-! ## Resets and bring-up -/

/-- Device resets (R535 to R539, Table 18.6): each leaves the device in Init with its Summits, Belays, held faults and Event Table as after
reset, keeps the fuses and records its cause; FC_FATAL, IT's count and device memory outlast all but POR. PERST# resets the device in PerstMode 0, else it takes the PCIe port alone down. A bring-up with every test passed
ends in PreOp with its channels online. -/
def Obligations.ResetsAndBringUp : Prop :=
  ∀ (s : State),
    let cleared := fun (t : State) => t.work.dstate = .init ∧ t.work.summits = [] ∧ t.work.belays = [] ∧ t.work.faultQ = [] ∧
      t.ev = State.reset.ev ∧ t.pending = s.pending ∧ t.work.fuses = s.work.fuses
    (∃ t, exec .rstN s = .next t ∧ cleared t ∧ t.pwr.resetCause = 1 ∧ t.work.now = s.work.now ∧ t.work.dram = s.work.dram ∧
      t.fc.fatal = s.fc.fatal ∧ t.fc.first = none) ∧
    (∃ t, exec .por s = .next t ∧ cleared t ∧ t.pwr.resetCause = 0 ∧ t.work.now = 0 ∧ t.work.dram = [] ∧ t.fc = Collector.reset) ∧
    (∃ t, exec .sysclkLoss s = .next t ∧ cleared t ∧ t.pwr.resetCause = 4 ∧ t.it.sysclk = false ∧ t.work.now = s.work.now) ∧
    (s.pwr.perst = false →
      (od s.work 0x7031 = 0 → ∃ t, exec .perstAssert s = .next t ∧ cleared t ∧ t.pwr.resetCause = 2 ∧ t.pwr.perst = true) ∧
      (od s.work 0x7031 ≠ 0 → (loseHost s.work).hold = none → ∃ t, exec .perstAssert s = .next t ∧ t.pwr.perst = true ∧
        t.host.pcieUp = false ∧ t.host.cfgSpace = [] ∧ t.work = loseHost s.work)) ∧
    (s.pwr.perst = true → exec .perstDeassert s =
      .next { s with pwr := { s.pwr with perst := false }, host := { s.host with pcieSt := 1, perstAt := s.work.now } }) ∧
    (∀ b, s.work.hold = none → (∀ c, c < 24 → (getCh s.work c).pprQueue = []) → bringUpMay s = true → s.fw.recovery = false →
      s.fw.booted = true → s.cfg.phase = 0 → (∀ m ∈ s.work.faultQ, m.cls ≠ 2) → railsMay s b = true →
      let boot := loadVals s.work s.cfg.actVals
      bringUpFails boot b = false → b.failedCrags = [] → b.failedSummits = [] → b.failedBanks = [] → b.failedChannels = [] →
      (∀ c, (getCrag s.work c).marked = false) → ∃ t, exec (.bringUp b) s = .next t ∧ t.work.dstate = .preOp ∧
        t.pwr.railsUp = true ∧ t.pwr.selfTest = 0 ∧ (∀ c, c < 24 → (getCh t.work c).state = 2 ∧ (getCh t.work c).trained = true) ∧
        (∀ d, d < 4 → (getSlice t.work d).enabled = decide (od boot 0x2330 = 1)))

/-- The machine after reset: IT counts from zero, the device is in Init, no command waits, memory lists nothing, every credit is 64, no
fault is held, and the collector is consistent (R45, R508; values that the spec does not give are the model's, log entry 1). -/
def Obligations.ResetState : Prop :=
  State.reset.pending = [] ∧ State.reset.work.now = 0 ∧ State.reset.work.dstate = .init ∧ State.reset.work.dram = [] ∧
  State.reset.work.faultQ = [] ∧ State.reset.work.hold = none ∧ State.reset.work.waiting = [] ∧ (∀ n c, Tab.get creditD (getSummit State.reset.work n).credits c = 64) ∧
  (∀ n, (getSummit State.reset.work n).state = .reset ∧ (getSummit State.reset.work n).lead = n) ∧
  (∀ c r, (getCrag State.reset.work c).ops = [] ∧ getQueue (getCrag State.reset.work c) r = Queue.reset) ∧
  (∀ b, (getBelay State.reset.work b).value = 0) ∧ State.reset.collectorOk

/-! ## Mailboxes, management port, versions, firmware -/

/-- A mailbox performs a checked message and gives its response, with DONE set; a malformed one performs nothing and sets MALFORMED
(R414 to R418, R423). An authentic datagram with a new SEQ is performed and answered under the key; one that is not authentic is counted
and not answered; a response leaves from the port that the request was sent to, MgmtUdpPort (R419 to R421). -/
def Obligations.MessagesAreAnswered : Prop :=
  (∀ (s : State), s.work.hold = none → hostReach s = true → (getBox s 0).busy = false → s.fw.dead = false →
    let bytes := Mem.read (getBox s 0).data 0x100 3840
    (parseMsg 3840 false bytes = none → ∃ t, exec (.mbGo .host) s = .next t ∧ (getBox t 0).done = true ∧
      (getBox t 0).malformed = true ∧ (getBox t 0).busy = false ∧ (getBox t 0).data = (getBox s 0).data ∧ t.cfg = s.cfg ∧
      t.work.od = s.work.od) ∧
    (∀ m u resp, parseMsg 3840 false bytes = some m →
      performMsg s .mailbox m (bytes.take (at_ bytes 6 2)) = (u, resp) → u.work.hold = none →
      ∃ t, exec (.mbGo .host) s = .next t ∧ (getBox t 0).done = true ∧ (getBox t 0).busy = false ∧
        Mem.read (getBox t 0).data 0x100 resp.length = resp ∧ t.cfg = u.cfg ∧ t.work.od = u.work.od)) ∧
  (∀ (s : State) (d : Datagram), mgmtServed s = true → d.dport.toNat = od s.work 0x1102 →
    (s.misc.mgmtKeyId = 0 ∨ d.tag ≠ hmac256 s.misc.mgmtKey d.msg ∨ parseMsg 1200 true d.msg = none →
      exec (.mgmtDatagram d) s = .next { s with misc := { s.misc with mgmtAuthFail := bump s.misc.mgmtAuthFail 1 } }) ∧
    (∀ m u resp, s.misc.mgmtKeyId ≠ 0 → d.tag = hmac256 s.misc.mgmtKey d.msg → parseMsg 1200 true d.msg = some m →
      s.fw.busy = false → s.work.again = true ∨ mgmtHeld s.work < 16 → s.misc.mgmtLastSeq.toNat < m.seq.toNat →
      performMsg { s with misc := { s.misc with mgmtLastSeq := m.seq } } .mgmt m d.msg = (u, resp) → u.work.hold = none →
      ∃ t, exec (.mgmtDatagram d) s = .next t ∧
        t.work = emit u.work (.datagram d.dport d.addr d.port resp (hmac256 s.misc.mgmtKey resp)) ∧ t.cfg = u.cfg)) ∧
  (∀ (s : State) (d : Datagram), d.dport.toNat ≠ od s.work 0x1102 → exec (.mgmtDatagram d) s = .next s)

/-- Versions and firmware (R434 to R441, R522, R543): a commit that ends gives the pending version the next number, or fails; a probation
that ends unconfirmed rolls back; twins exchange their triples and the primary decides; a trial that expires, or a watchdog that is
missed, restarts Basecamp, and the third restart within 600 s leaves it held in reset; a Basecamp that is back switches off the rails that were
to be switched off meanwhile (R525). A commit fails on flash that has no block left (R523), and a standby keeps the decision for the action
that falls due next (log entry 153). -/
def Obligations.VersionsAndFirmware : Prop :=
  ∀ (s : State),
    (s.cfg.phase = 1 → (flashFull s = false → ∃ t, exec (.commitDone true) s = .next t ∧ t = { s with cfg := t.cfg } ∧ t.cfg.phase = 0 ∧
        t.cfg.pending = s.cfg.highest + 1 ∧ t.cfg.highest = s.cfg.highest + 1 ∧ t.cfg.pendVals = s.cfg.commitVals ∧
        t.cfg.active = s.cfg.active) ∧
      (∀ ok, (ok = true → flashFull s = true) → ∃ t, exec (.commitDone ok) s = .next t ∧ t = { s with cfg := t.cfg } ∧ t.cfg.phase = 0 ∧ t.cfg.pending = s.cfg.pending ∧
        t.cfg.lastResult = stFlashFail)) ∧
    (s.cfg.phase = 3 → s.cfg.probEnd.toNat ≤ s.work.now.toNat → s.work.duplex = false → ∃ t, exec .probationEnd s = .next t ∧
      t.cfg.active = s.cfg.previous ∧ t.cfg.previous = 0 ∧ t.cfg.rbVersion = s.cfg.active ∧ t.cfg.rbCause = 1) ∧
    (∀ tick, s.work.duplex = true →
      (cfgActivateTicks s 100000 = some tick → exec .cfgTripleDue s = .next { s with
        work := sendCtrl s.work 1 0 0 (natLe 4 s.cfg.pending ++ cfgDigest s.cfg.pendVals ++ natLe 8 tick.toNat) }) ∧
      (cfgActivateTicks s 10000 = some tick → s.twin.role = 1 → (∀ d, s.cfg.decision = some d → d.2 ≠ tick) →
        ∃ t, exec .cfgDecisionDue s = .next t ∧ t.cfg.decision = some (cfgDecide s tick, tick) ∧ t.work = sendCtrl s.work 2 0 (cfgDecide s tick) [])) ∧
    (∀ f : Frame, s.work.duplex = true → s.work.dstate ≠ .fenced → reservedFrame 8 10 f = false →
      let heard := fun kind => returnCredit (s.work.took 8 (ropeIn 10 kind f)) 8 (ropeIn 10 kind f)
      (s.hears (.cfgTriple f) 8 (ropeIn 10 1 f) → ∃ t, exec (.cfgTriple f) s = .next t ∧ t.work = heard 1 ∧
        (t.cfg.twinTriple.map (·.1)) = some (leNat ((padTo 128 0 f.payload).take 4))) ∧
      (s.hears (.cfgDecision f) 8 (ropeIn 10 2 f) → s.twin.role = 2 → f.addr.toNat % 4 < 2 → exec (.cfgDecision f) s =
        .next { s with work := heard 2, cfg := { s.cfg with
          decision := (cfgActivateTicks s 10000).map fun t => (f.addr.toNat % 4, t) } }) ∧
      (s.hears (.cfgConfirmed f) 8 (ropeIn 10 3 f) →
        exec (.cfgConfirmed f) s = .next { s with work := heard 3, cfg := { s.cfg with twinConfirmed := true } })) ∧
    (s.fw.trial = true → s.fw.trialStart.toNat + od s.work 0x1405 ≤ s.work.now.toNat → slotValid s.fw (1 - s.fw.slot) = true →
      ∃ t, exec .fwTrialExpiry s = .next t ∧ t.fw.busy = true ∧ t.fw.slot = 1 - s.fw.slot ∧ t.fw.trial = false ∧
        t.fw.status = 5 ∧ t.work = s.work) ∧
    (s.fw.dead = false → s.fw.busy = false →
      (s.fw.restarts = [] → ∃ t, exec .sentinelWatchdogMiss s = .next t ∧ t.fw.busy = true ∧ t.fw.dead = false ∧
        t.fw.restarts = [s.work.now] ∧ t.work = raise s.work srcSentinel 0x75 0 1) ∧
      (∀ a b, s.fw.restarts = [a, b] → s.work.now.toNat < a.toNat + 6000000000 → s.work.now.toNat < b.toNat + 6000000000 →
        ∃ t, exec .sentinelWatchdogMiss s = .next t ∧ t.fw.dead = true ∧ t.fw.busy = false)) ∧
    (s.pwr.offDue = false → exec .basecampReturn s = .next { s with fw := { s.fw with busy := false } }) ∧
    (s.pwr.offDue = true → s.pwr.railsUp = true → s.fw.dead = false → s.fw.recovery = false →
      ∃ t, exec .basecampReturn s = .next t ∧ t.fw.busy = false ∧ t.pwr.railsUp = false ∧ t.pwr.offDue = false)

/-! ## The host port -/

/-- The host port (R442 to R452, R538, R547). A BAR2 read completes with the bytes once no BAR2 write before it waits, a write is stored
and owes one acknowledgement, and one that BAR2 does not reach is Unsupported or discarded. A doorbell of an enabled, ACTIVE tenancy in Run
posts and counts a ring, any other is discarded. The link's loss takes the host's work with it and its return ends that; configuration
requests are retried in Init, and else read the identification or write the space. -/
def Obligations.HostPortCommands : Prop :=
  (∀ (s : State) (off n : Nat) (data : List Byte), s.work.hold = none →
    let pa := bar2At s.host + off
    (∀ w bs po, behind s.work (.bar2Read off n) = false → bar2Open s off n = true → s.work.bar2Acks = 0 → readPa s.work (reqPort 2 0) pa n = (w, bs, po) → w.hold = none →
      exec (.bar2Read off n) s = .next { s with work := emit w (.completion bs po) }) ∧
    (behind s.work (.bar2Read off n) = false → hostReach s = true → bar2Open s off n = false → exec (.bar2Read off n) s = .next { s with work := emit s.work .unsupported }) ∧
    (behind s.work (.bar2Write off data false) = false → bar2Open s off data.length = true → isStandby s.work = false →
      s.work.fwding = false →
      (writePa s.work (reqPort 2 0) pa data false).hold = none →
      let w := writePa s.work (reqPort 2 0) pa data false
      exec (.bar2Write off data false) s = .next { s with work := { w with bar2Acks := w.bar2Acks + 1 } }) ∧
    (bar2Open s off data.length = false → exec (.bar2Write off data false) s = .next s)) ∧
  (∀ (s : State) (k : Nat) (v : W64), k < 16 → s.work.hold = none → s.bankOpen .host → hostReach s = true →
    let belay := bitsN v.toNat 0 16
    let inc := bitsN v.toNat 16 32
    (s.work.dstate = .run → bit s.host.dbEnable k = true → (getTen s.work k).state = 1 → mayBelay s.work k 33 belay = true →
      s.work.bar2Acks = 0 → inc ≠ 0 → ∃ t, exec (.dbRing k v) s = .next t ∧
        (getBox t (k + 1)).dbRings = (getBox s (k + 1)).dbRings + 1 ∧
        t.work.posts = s.work.posts ++ [{ belay := belay, inc := BitVec.ofNat 32 inc, sig := sigKind s.work 1, crag := none, reply := none }]) ∧
    (s.work.dstate ≠ .run ∨ bit s.host.dbEnable k = false ∨ (getTen s.work k).state ≠ 1 → ∃ t, exec (.dbRing k v) s = .next t ∧
      (getBox t (k + 1)).dbDiscarded = true ∧ t.work = s.work)) ∧
  (∀ (s : State), s.work.hold = none →
    (s.host.pcieUp = true → (loseHost (raise s.work srcPcie 0x5B 0 0)).hold = none → ∃ t, exec .pcieLinkDown s = .next t ∧
      t.host.pcieUp = false ∧ t.host.pcieSt = 3 ∧ t.host.downEvt = true ∧ t.host.cfgSpace = [] ∧
      t.work = loseHost (raise s.work srcPcie 0x5B 0 0)) ∧
    (∀ width speed, s.pwr.perst = false → s.pwr.railsUp = true → s.it.sysclk = true → ∃ t, exec (.pcieLinkUp width speed) s = .next t ∧ t.host.pcieUp = true ∧
      t.host.pcieSt = 2 ∧ t.host.width = width % 32 ∧ t.work = { s.work with hostGone := false }) ∧
    (s.host.pcieUp = true → cfgRetry s = false →
      exec (.configurationRequest false 0 [] 4) s = .next { s with work := emit s.work (.completion [0xA7, 0x1F, 0x40, 0x94] false) } ∧
      (∀ off data, off + data.length ≤ 4096 → ∃ t, exec (.configurationRequest true off data 0) s = .next t ∧
        t.host.cfgSpace = Mem.write s.host.cfgSpace off data ∧ t.work = emit s.work (.completion [] false))) ∧
    (s.host.pcieUp = true → cfgRetry s = true → ∀ wr off data len,
      exec (.configurationRequest wr off data len) s = .next { s with work := emit s.work .crs }))

/-! ## Traverse ports and the Rope -/

/-- Frames that reach their device over a link (R456, R462, R464, R466 to R468, R276), the next in order and good: a request that no import
entry admits is refused, a WRITE that one admits is stored and acknowledged, a READ is answered with its block, a POST travels to its
Belay; a response ends the request with its tag; a request without one ends with TRAV_TIMEOUT. A frame of a
reserved type is discarded and counted (R459). A frame's credit returns when it has happened; one whose CRC-32C is wrong does nothing but
ask for a replay and count. -/
def Obligations.TraverseRequestsAndResponses : Prop :=
  ∀ (s : State) (p : Nat) (f : Frame), p < 8 → f.loc = false → f.hop = f.nhops → f.dst.toNat = devId s.work →
    silenced s.work = false → plainFrame p f →
    let g := fun typ => { f with typ := typ }
    let w := fun typ => s.work.took p (g typ)
    let end_ := fun (typ : Nat) (v : Work) (st : Nat) (bs : List Byte) (po : BitVec 2) => respond v p (g typ) st bs po
    (s.work.fwding = false →
      (∀ typ cmd, (typ, cmd) ∈ [(1, Instr.write p f), (2, Instr.read p f), (3, Instr.post p f)] →
        (s.hears cmd p (g typ) → importEntry (w typ) (g typ) = none →
          (end_ typ (w typ) stRefused [] 0).hold = none → exec cmd s = .next { s with work := returnCredit (end_ typ (w typ) stRefused [] 0) p (g typ) }) ∧
        (s.work.again = false → s.work.hold = none → portUp s.work p = true → f.crc ≠ frameCrc (g typ) →
          ∃ t, exec cmd s = .next t ∧ t = { s with work := { s.work with ports := t.work.ports, out := t.work.out } } ∧
            (getPort t.work p).crcErr = bump (getPort s.work p).crcErr 1 ∧ (getPort t.work p).rxSeq = (getPort s.work p).rxSeq ∧
            (getPort t.work p).asking = true)) ∧
      (∀ typ e, importEntry (w typ) (g typ) = some e → (getTen s.work (bitsN e 40 4)).state = 1 →
        let k := bitsN e 40 4
        let m := meterFrame (w typ) false k f.payload.length
        (typ = 1 → s.hears (.write p f) p (g 1) → bitsN e 45 1 = 1 → f.part = false → f.len = 1 → ∀ v,
          vWrite m (.port p) (reqPort 2 k) f.addr.toNat ((padTo 128 0 f.payload).take 128) (framePois f 0) = (v, none) →
          v.hold = none → (end_ 1 v 0 [] 0).hold = none → exec (.write p f) s = .next { s with work := returnCredit (end_ 1 v 0 [] 0) p (g 1) }) ∧
        (typ = 2 → s.hears (.read p f) p (g 2) → bitsN e 44 1 = 1 → f.addr.toNat / 16 % 4 = 1 → ∀ v bs po,
          vRead m (.port p) (reqPort 2 k) (f.addr.toNat / 128 * 128) 128 = (v, bs, po, none) → v.hold = none →
          let r := end_ 2 v 0 bs (BitVec.ofNat 2 (b2n po))
          r.hold = none → exec (.read p f) s = .next { s with work := returnCredit r p (g 2) }) ∧
        (typ = 3 → s.hears (.post p f) p (g 3) → bitsN e 46 1 = 1 → mayBelay m k 33 (bitsN f.addr.toNat 0 16) = true →
          ∃ t q, exec (.post p f) s = .next t ∧
          t.work.posts = s.work.posts ++ [q] ∧ q.belay = bitsN f.addr.toNat 0 16 ∧ q.inc = f.inc ∧
          q.reply = some (p, g 3) ∧ t.work.belays = s.work.belays))) ∧
    (∀ h, reservedFrame p 1 h = true → ∀ cmd ∈ [Instr.write p h, Instr.read p h, Instr.post p h, Instr.readResp p h, Instr.writeAck p h, Instr.postAck p h],
      s.hears cmd p h → exec cmd s = .next { s with work := returnCredit (countDiscard (s.work.took p h) p) p h }) ∧
    (∀ r o, s.work.remotes = [r] → r.tag = f.tag → f.status = 0 → findOp (getCrag s.work r.crag) r.op = some o →
      (r.typ = 1 → s.hears (.writeAck p f) p (g 5) → 0 < o.acks → ∃ t, exec (.writeAck p f) s = .next t ∧ State.sameBut s t ∧ t.work.remotes = [] ∧
        ((findOp (getCrag t.work r.crag) r.op).map (·.acks)) = some (o.acks - 1)) ∧
      (r.typ = 3 → s.hears (.postAck p f) p (g 6) → o.stage = .waiting → opcOf o.pkt = 0x80 → ∃ t, exec (.postAck p f) s = .next t ∧ State.sameBut s t ∧
        t.work.remotes = [] ∧ ((findOp (getCrag t.work r.crag) r.op).map (·.stage)) = some .done) ∧
      (r.typ = 2 → s.hears (.readResp p f) p (g 4) →
        let v := meterFrame { w 4 with remotes := [] } false r.ten f.payload.length
        let u := remoteRead v r.crag r.op ((padTo 128 0 f.payload).take 128) (framePois f 0)
        u.hold = none → exec (.readResp p f) s = .next { s with work := returnCredit u p (g 4) })) ∧
    (∀ r, s.work.hold = none → s.work.remotes = [r] → r.typ = 1 → r.sentAt.toNat + od s.work 0x1304 ≤ s.work.now.toNat →
      ∃ t, exec (.travTimeout r.tag) s = .next t ∧ State.sameBut s t ∧ t.work.remotes = [] ∧
        t.work.faultQ = s.work.faultQ ++ [faultMsg s.work.now (srcCrag s.work r.crag) 0x5F (tenOfCrag s.work r.crag) r.dev.toNat])

/-- Time exchanges and links (R22, R374, R377, R455 to R457, R461, R472, R475): a request is sent on every port of ITTxMask that is up and
its reply echoes its first timestamp; one without credit or a place in the replay buffer waits at its port; a LINK frame names the
neighbour and brings its credits; a lane that fails takes a spare, then half width, then the link. -/
def Obligations.LinksExchangeTimeAndLoseLanes : Prop :=
  (∀ (s : State) (p : Nat) (f : Frame), p < 9 → portUp s.work p = true → linkOnly s p = false → plainFrame p f →
    let x := getPort s.work p
    let clear := 168 ≤ x.credit.getD 2 0 ∧ x.sent.length < 64 ∧ ∀ h ∈ x.waitQ, vcOf h.typ ≠ 2
    (od s.work 0x8007 = 2 ^ p → ∃ t g, exec .timeExchangeTimer s = .next t ∧ g.typ = 7 ∧
      (clear → (getPort t.work p).sentT1 = at_ g.payload 0 8 + 1 ∧ at_ g.payload 0 8 / 1024 = s.work.now.toNat % 2 ^ 54 ∧
        t.work.out = s.work.out ++ [.frame p g] ∧ g.lseq = x.txSeq ∧ g.crc = frameCrc g) ∧
      (¬ clear → t.work.out = s.work.out ∧ (getPort t.work p).waitQ = x.waitQ ++ [g])) ∧
    (s.hears (.time p f) p { f with typ := 7 } → at_ f.payload 28 1 / 2 % 2 = 0 → clear →
      ∃ t g rest, exec (.time p f) s = .next t ∧ t.work.out = s.work.out ++ .frame p g :: rest ∧ g.typ = 7 ∧
        at_ g.payload 0 8 = at_ f.payload 0 8 ∧ at_ g.payload 28 1 / 2 % 2 = 1 ∧ t.work.now = s.work.now) ∧
    (f.crc = frameCrc { f with typ := 8 } → f.lseq = x.rxSeq → ∃ t, exec (.link p f) s = .next t ∧ State.sameBut s t ∧
      t.work = { s.work with ports := t.work.ports, out := t.work.out, fresh := t.work.fresh } ∧ (∀ k, k ≠ p → getPort t.work k = getPort s.work k) ∧
      (getPort t.work p).neigh = some f.src ∧ (getPort t.work p).rxSeq = x.rxSeq + 1 ∧
      (x.waitQ = [] → ∀ vc, vc < 5 → vc ≠ 2 → (getPort t.work p).credit.getD vc 0 =
        ((linkRead f).credits.foldl (fun c e => addBytes c e.1 e.2) x.credit).getD vc 0))) ∧
  (∀ (s : State) (p lane : Nat), p < 8 → lane < 4 →
    let x := getPort s.work p
    (x.state = 2 → x.lanes.getLsbD lane = true → x.half = false → x.spares = 0 → ∃ t, exec (.travLaneFail p lane) s = .next t ∧
      (getPort t.work p).state = 3 ∧ (getPort t.work p).spares = 1 ∧ (getPort t.work p).lanes.getLsbD lane = false ∧
      (getPort t.work p).lanes.getLsbD 4 = true ∧ t.misc.travUsed.getLsbD p = true) ∧
    (x.state = 2 → x.lanes.getLsbD lane = true → x.half = true → ∃ t, exec (.travLaneFail p lane) s = .next t ∧
      (getPort t.work p).state = 4 ∧ (getPort t.work p).downEvt = true ∧
      t.work.faultQ = s.work.faultQ ++ [faultMsg s.work.now (srcPort p) 0x5D 0 0]) ∧
    (portEnabled s.work p = true → linksMay s = true → x.state ≠ 2 → ∃ t, exec (.travLinkUp p) s = .next t ∧ State.sameBut s t ∧
      (getPort t.work p).state = 2 ∧ (∀ k, k ≠ p → getPort t.work k = getPort s.work k) ∧
      (x.state = 3 → (getPort t.work p).lanes = x.lanes ∧ (x.linkDue = false → x.waitQ = [] → getPort t.work p = { x with state := 2 })) ∧
      (x.state = 1 → x.lanes ≠ 0 → (getPort t.work p).lanes = x.lanes ∧ (getPort t.work p).half = x.half) ∧
      (x.state ≠ 3 → ¬ (x.state = 1 ∧ x.lanes ≠ 0) → (getPort t.work p).spares = b2n (s.misc.travUsed.getLsbD p) ∧ (getPort t.work p).half = false ∧
        (getPort t.work p).rxSeq = 0 ∧ (s.misc.travUsed.getLsbD p = false → (getPort t.work p).lanes = 0xF)))) ∧
  (∀ (s : State) (lane mode : Nat) (dev : BitVec 16), ropeFitted s.work = true →
    let x := getPort s.work 8
    (lane < 18 → x.lanes.getLsbD lane = true → x.spares < 2 → x.state = 2 → ∃ t, exec (.ropeLaneFail lane) s = .next t ∧
      getPort t.work 8 = { x with spares := x.spares + 1, state := 3, lanes := setBit x.lanes lane false } ∧
      t.work = raise (setPort s.work 8 (getPort t.work 8)) srcRope 0x60 0 0) ∧
    (x.state = 3 → ∃ t, exec .ropeRetrainDone s = .next t ∧ State.sameBut s t ∧ (getPort t.work 8).state = 2 ∧
      (∀ k, k ≠ 8 → getPort t.work k = getPort s.work k) ∧
      (x.linkDue = false → x.waitQ = [] → getPort t.work 8 = { x with state := 2 })) ∧
    (linksMay s = true → s.twin.seatConf = false → mode = od s.work 0x8100 → mode = 2 →
      ∃ t, exec (.ropeLinkUp mode (1 - b2n s.work.fuses.seat) dev) s = .next t ∧ (getPort t.work 8).state = 2 ∧
        (getPort t.work 8).neigh = some dev ∧ t.work.share = true ∧ t.work.duplex = false ∧ t.twin.pair = 1)) ∧
  (∀ (s : State) (l : RidgeLane), l.wf = true →
    let src := srcCode l.die 4 l.link
    let addr := l.group + l.dir * 128
    (Tab.get zeroD s.misc.ridgeGrp (ridgeKey l) = 0 → ∃ t, exec (.ridgeLaneFail l) s = .next t ∧
      t.work = raise s.work src 0x50 0 addr ∧ Tab.get zeroD t.misc.ridgeGrp (ridgeKey l) = 1) ∧
    (Tab.get zeroD s.misc.ridgeGrp (ridgeKey l) = 1 → ∃ t, exec (.ridgeLaneFail l) s = .next t ∧
      t.work = raise s.work src 0x51 0 addr ∧ Tab.get zeroD t.misc.ridgeGrp (ridgeKey l) = 2))

/-- Twins in Duplex (R478, R488, R490 to R496): leases settle which is primary, refresh the standby's timer, and fence the primary of the
older term; a standby without a lease asks its witness or is orphaned; a DETACH leaves a primary degraded with its term; STOP_TEN
pre-empts its tenancy, RESET_TEN resets it, AGREE frees the digests of its epoch, and the primary keeps a digest of an epoch that it
has not closed. -/
def Obligations.TwinsLeadAndReact : Prop :=
  ∀ (s : State) (f : Frame), s.work.duplex = true → s.work.dstate ≠ .fenced → silenced s.work = false → plainFrame 8 f →
    let l := parseLease f
    let ctrl := fun kind => ropeIn 10 kind f
    (s.twin.leaseSent.toNat + 100000 ≤ s.work.now.toNat → s.twin.role = 1 ∨ s.twin.role = 2 → exec .leaseSend s = .next (sendLease s)) ∧
    (s.work.now.toNat < s.twin.leaseSent.toNat + 100000 → exec .leaseSend s = .next s) ∧
    (s.hears (.lease f) 8 (ropeIn 9 0 f) → s.twin.role = 0 → l.role = 0 → s.work.fuses.seat = false →
      ∃ t, exec (.lease f) s = .next t ∧ t.twin.role = 1 ∧ t.twin.pair = (if sameCfg s l then 1 else 2) ∧
      t.twin.term = (if s.twin.term.toNat < l.term.toNat then l.term else s.twin.term) + 1) ∧
    (s.hears (.lease f) 8 (ropeIn 9 0 f) → s.twin.role = 2 → l.role = 1 → sameCfg s l = true → ∃ t, exec (.lease f) s = .next t ∧ t.twin.role = 2 ∧
      t.twin.lastLease = s.work.now ∧ t.twin.query = false ∧ t.work.dstate = s.work.dstate) ∧
    (s.hears (.lease f) 8 (ropeIn 9 0 f) → s.twin.role = 1 → l.role = 1 → s.twin.term.toNat < l.term.toNat →
      s.work.dstate = .run → ∃ t, exec (.lease f) s = .next t ∧
      t.work.dstate = .fenced ∧ t.twin.role = 0 ∧
      t.work.faultQ = s.work.faultQ ++ [faultMsg s.work.now srcRope 0x66 0 (fld l.term 0 48)]) ∧
    (s.twin.role = 2 → s.twin.query = false → s.twin.lastLease.toNat + 500000 ≤ s.work.now.toNat →
      (od s.work 0x8105 = 2 → exec .leaseTimeout s = .next { s with twin := { s.twin with query := true, queryAt := s.work.now } }) ∧
      (od s.work 0x8105 = 0 → ∃ t, exec .leaseTimeout s = .next t ∧ t.twin.role = 3)) ∧
    (s.twin.query = true → s.twin.queryAt.toNat + od s.work 0x8106 ≤ s.work.now.toNat → ∃ t, exec .witnessWaitExpiry s = .next t ∧
      t.twin.role = 3 ∧ t.twin.query = false ∧ t.work.faultQ = s.work.faultQ ++ [faultMsg s.work.now srcRope 0x65 0 0]) ∧
    (s.hears (.ctrlDetach f) 8 (ctrl 8) → s.twin.role = 1 → ∃ t, exec (.ctrlDetach f) s = .next t ∧ t.twin.pair = 2 ∧ t.twin.term = s.twin.term ∧ t.work.fwding = false) ∧
    (s.hears (.stopTen f) 8 (ctrl 5) → ∃ t, exec (.stopTen f) s = .next t ∧ (getTen t.work (f.srcTen % 16)).preempt = true ∧
      Tab.get zeroD t.twin.mism (f.srcTen % 16) = s.work.now.toNat + 1) ∧
    (s.hears (.resetTen f) 8 (ctrl 7) → (getTen s.work (f.srcTen % 16)).state = 1 →
      (s.work.noTasks (f.srcTen % 16) ∧ s.work.upds = []) ∨ (tenResetCore (s.work.took 8 (ctrl 7)) (f.srcTen % 16)).hold = none →
      ∃ t, exec (.resetTen f) s = .next t ∧
      (getTen t.work (f.srcTen % 16)).resets = bump (getTen s.work (f.srcTen % 16)).resets 1 ∧
      (getTen t.work (f.srcTen % 16)).preempt = false) ∧
    (let e := BitVec.ofNat 64 (leNat ((padTo 128 0 f.payload).take 8))
     let lead := fld f.addr 0 4
     s.hears (.agree f) 8 (ctrl 4) → ∃ t, exec (.agree f) s = .next t ∧ (∀ d ∈ t.work.digests, ¬ (d.1 = lead ∧ d.2.1 = e)) ∧
       (Tab.get (bvD 64) t.twin.agreed lead).toNat = max (Tab.get (bvD 64) s.twin.agreed lead).toNat e.toNat ∧
       (∀ k, k ≠ lead → Tab.get (bvD 64) t.twin.agreed k = Tab.get (bvD 64) s.twin.agreed k)) ∧
    (s.hears (.digest f) 8 (ropeIn 11 0 f) → s.twin.role = 1 → s.twin.closedAt = [] → ∃ t d, exec (.digest f) s = .next t ∧ t.twin.rxDig = s.twin.rxDig ++ [d] ∧
      d.2.1 = BitVec.ofNat 64 (leNat ((padTo 128 0 f.payload).take 8)) ∧ t.work.digests = s.work.digests)

/-- What travels between twins (R479, R481, R488, R496, R497): the standby applies what its primary forwards and what is copied to it: a
register write, a block that BAR2 or the copy writes, data for a channel that asks for none yet, a fragment, a POST of another device; and
each of these whatever it leads to, where no memory access of it meets a hold. A self-test's result is kept and sent until both are
known, and a result that does not come counts as a failure. -/
def Obligations.TwinsForwardCopyAndTest : Prop :=
  ∀ (s : State) (f : Frame), s.work.duplex = true → s.work.dstate ≠ .fenced → silenced s.work = false → f.typ ≠ 0 → f.typ < 14 →
    (s.twin.role = 2 →
      let g := fun kind => ropeIn 12 kind f
      let w := fun kind => setPort (s.work.took 8 (g kind)) 8 { getPort (s.work.took 8 (g kind)) 8 with
        fwdBytes := bump (getPort (s.work.took 8 (g kind)) 8).fwdBytes (128 * f.len) }
      let done := fun kind (t : State) => { t with work := returnCredit t.work 8 (g kind) }
      let block := (padTo 128 0 f.payload).take 128
      (s.hears (.fwdHostRegister f) 8 (g 1) →
        (∀ k, k < 7 → fld f.addr 0 16 = 0x3000 + 8 * k → at_ f.payload 8 1 = 4 → ∃ t, exec (.fwdHostRegister f) s = .next t ∧
          t.work = returnCredit (w 1) 8 (g 1) ∧ selVal t 0 k = (at_ f.payload 0 8 % 2 ^ 32) &&& selMask k) ∧
        ((fwdReg { s with work := w 1 } (g 1)).work.hold = none →
          exec (.fwdHostRegister f) s = .next (done 1 (fwdReg { s with work := w 1 } (g 1))))) ∧
      (s.hears (.fwdBar2 f) 8 (g 2) →
        (∀ way, f.part = false → f.len = 1 → f.addr.toNat % 128 = 0 → s.work.mirror = 0 → s.work.inCache f.addr.toNat way →
          ∃ t, exec (.fwdBar2 f) s = .next t ∧ peekBlock t.work f.addr.toNat = (block, framePois f 0) ∧
            t.work.dram = s.work.dram ∧ t.work.bar2Acks = s.work.bar2Acks + 1) ∧
        ((fwdBar2 (w 2) (g 2)).hold = none → exec (.fwdBar2 f) s = .next (done 2 { s with work := fwdBar2 (w 2) (g 2) }))) ∧
      (s.hears (.fwdStreamData f) 8 (g 3) →
        (let c := fld f.addr 0 8
         let ch := fld f.addr 8 3
         f.len = 1 → strmAt s.work c (getChan (getCrag s.work c) ch).op = none → ∃ t, exec (.fwdStreamData f) s = .next t ∧
          State.sameBut s t ∧ t.work.fwdData = s.work.fwdData ++ [(c, ch, block, framePois f 0)] ∧ t.work.crags = s.work.crags) ∧
        ((fwdStream (w 3) (g 3)).hold = none →
          exec (.fwdStreamData f) s = .next (done 3 { s with work := fwdStream (w 3) (g 3) }))) ∧
      (s.hears (.fwdOdFragment f) 8 (g 4) → bit f.addr 16 = false → fld f.addr 0 16 = 0 →
        ∃ t, exec (.fwdOdFragment f) s = .next t ∧ t.work = returnCredit (w 4) 8 (g 4) ∧ t.twin.odFrag = f.payload) ∧
      (s.hears (.fwdTraverseRequest f) 8 (g 5) →
        (let h := parseHeader (leNat (f.payload.take 32)) (f.payload.drop 128)
         ∀ e, h.typ = 3 → importEntry s.work h = some e → bitsN e 46 1 = 1 → (getTen s.work (bitsN e 40 4)).state = 1 →
          mayBelay s.work (bitsN e 40 4) 33 (bitsN h.addr.toNat 0 16) = true → ∃ t q, exec (.fwdTraverseRequest f) s = .next t ∧
            State.sameBut s t ∧ t.work.posts = s.work.posts ++ [q] ∧ q.belay = bitsN h.addr.toNat 0 16 ∧ q.inc = h.inc ∧
            t.work.belays = s.work.belays) ∧
        ((fwdRequest (w 5) (g 5)).hold = none →
          exec (.fwdTraverseRequest f) s = .next (done 5 { s with work := fwdRequest (w 5) (g 5) }))) ∧
      (s.hears (.copy f) 8 (ropeIn 13 0 f) → f.len = 1 →
        let a := f.addr.toNat / 128 * 128
        let v := writePa (s.work.took 8 (ropeIn 13 0 f)) (reqPort 0 0) a block (framePois f 0)
        let u := setPort v 8 { getPort v 8 with copyBytes := bump (getPort v 8).copyBytes 128 }
        (∀ way, s.work.mirror = 0 → s.work.inCache a way → ∃ t, exec (.copy f) s = .next t ∧
          peekBlock t.work a = (block, framePois f 0) ∧ t.work.dram = s.work.dram) ∧
        (v.hold = none → exec (.copy f) s = .next { s with work := returnCredit u 8 (ropeIn 13 0 f) }))) ∧
    (s.twin.pair = 3 → s.twin.role = 1 → s.twin.copyAt < 2 ^ 48 → exec .copyDone s = .next s) ∧
    (s.twin.pair = 3 → s.twin.role ≠ 1 ∨ 2 ^ 48 ≤ s.twin.copyAt → ∃ t, exec .copyDone s = .next t ∧ t.twin = { s.twin with pair := 1 } ∧
      t.work = { s.work with standby := t.work.standby, fwding := t.work.fwding, mirror := t.work.mirror }) ∧
    (∀ (k : Nat) (r : TestResult), k < 16 → Tab.get zeroD s.twin.mism k ≠ 0 → Tab.get testD s.twin.myTest k = none →
      Tab.get testD s.twin.hisTest k = none →
      let crags := r.crags.filter fun p => (logicalOf s.work (p / 256) (p % 256)).any fun c => tenOfCrag s.work c = k
      let summits := r.summits.filter fun n => decide (n < 16) && tenOfSpur s.work n = k
      let pass := crags = [] && summits = []
      let w := sendCtrl (testFails ((tenCrags s.work k).foldl testCrag s.work) crags summits) 6 k (b2n pass) []
      w.hold = none → ∃ t, exec (.selfTestComplete k r) s = .next t ∧ t.work = w ∧
        Tab.get testD t.twin.myTest k = some pass ∧ Tab.get zeroD t.twin.mism k = Tab.get zeroD s.twin.mism k ∧
        t.pwr.selfTest = s.pwr.selfTest ||| selfTestBits crags summits) ∧
    (let k := f.srcTen % 16
     f.len < 3 → s.hears (.selftest f) 8 (ropeIn 10 6 f) → Tab.get zeroD s.twin.mism k ≠ 0 → Tab.get testD s.twin.myTest k = none →
      Tab.get testD s.twin.hisTest k = none → ∃ t, exec (.selftest f) s = .next t ∧
        Tab.get testD t.twin.hisTest k = some (decide (fld f.addr 0 1 = 1)) ∧
        t.work = returnCredit (s.work.took 8 (ropeIn 10 6 f)) 8 (ropeIn 10 6 f)) ∧
    (∀ k, k < 16 → s.work.hold = none → Tab.get zeroD s.twin.mism k ≠ 0 → Tab.get zeroD s.twin.mism k + 10000000 ≤ s.work.now.toNat + 1 →
      Tab.get testD s.twin.myTest k = none → Tab.get testD s.twin.hisTest k = none →
      ∃ t, exec (.selftestResultTimeout k) s = .next t ∧ Tab.get testD t.twin.myTest k = some false ∧
        Tab.get testD t.twin.hisTest k = some false ∧ Tab.get zeroD t.twin.mism k = 0 ∧ t.work = s.work)

/-! ## Faults and the other ports -/

/-- Faults (R500 to R511, R518): a unit holds the message of what it detects; the collector takes the oldest message, keeps the first,
counts its class, and a fatal one stops the device; the status bits are cleared by their writes; Basecamp writes a log record after 1 s;
a marked Crag whose party stands in RESET gets a spare. -/
def Obligations.FaultsAreHeldCollectedAndCleared : Prop :=
  ∀ (s : State),
    (∀ m : FaultMsg, fld m.src 8 5 ≠ 0 → fld m.src 8 5 ≠ 1 → m.kind.toNat ∈ knownKinds →
      m.kind.toNat ∉ [0x25, 0x30, 0x31, 0x44, 0x5B, 0x5D, 0x61, 0x66, 0x67, 0x77] → s.work.hold = none →
      exec (.faultMessage (some m)) s = .next { s with work := raise s.work m.src m.kind.toNat m.ten.toNat m.addr.toNat }) ∧
    (∀ m : FaultMsg, s.work.hold = none → (detect s m).work.hold = none → exec (.faultMessage (some m)) s = .next (detect s m)) ∧
    (∀ pre m post, s.work.faultQ = pre ++ m :: post → (∀ x ∈ pre, x.it = m.it ∧ m.src.toNat < x.src.toNat) →
      (∀ x ∈ post, x.it = m.it → m.src.toNat ≤ x.src.toNat) →
      let rest := pre ++ post
      (m.cls = 0 → s.fc.ceIrq = false → ∃ t, exec (.faultMessage none) s = .next t ∧ t.work = { s.work with faultQ := rest } ∧
        t.fc.cntCe = bumpSat s.fc.cntCe 1 ∧ t.fc.cntCt = s.fc.cntCt ∧ t.fc.valid = (s.fc.valid || s.fc.first.isNone) ∧
        (s.fc.first = none → t.fc.first = some m) ∧ (s.fc.first ≠ none → t.fc.first = s.fc.first)) ∧
      (m.cls = 1 → ∃ t, exec (.faultMessage none) s = .next t ∧ t.work.faultQ = rest ∧ t.fc.cntCt = bumpSat s.fc.cntCt 1 ∧
        Tab.get tenLastD t.fc.tenLast m.ten.toNat = some m ∧ t.fc.fatal = s.fc.fatal ∧ t.work.dstate = s.work.dstate) ∧
      (m.cls = 2 → s.work.dstate = .run → ∃ t, exec (.faultMessage none) s = .next t ∧ t.work.dstate = .stopped ∧
        t.work.stopCause = 2 ∧ t.fc.fatalN = true ∧ t.fc.fatalValid = true ∧
        (s.fc.fatalValid = false → t.fc.fatal = some m) ∧ (s.fc.fatalValid = true → t.fc.fatal = s.fc.fatal))) ∧
    (s.work.hold = none → ∃ t, exec (.faultClearValid .host) s = .next t ∧ t = { s with fc := t.fc } ∧ t.fc.first = none ∧ t.fc.valid = false ∧
      t.fc.overflow = false ∧ t.fc.merged = 0 ∧ t.fc.fatal = s.fc.fatal ∧ t.fc.cntCe = s.fc.cntCe) ∧
    (s.work.hold = none → ∃ t, exec (.faultClearFatal .host) s = .next t ∧ t = { s with fc := t.fc } ∧ t.fc.fatal = none ∧ t.fc.fatalValid = false ∧
      t.fc.first = s.fc.first) ∧
    (∀ b, b ≠ .host → s.objectsOpen b → exec (.faultClearValid b) s = .next (clearValid s) ∧
      exec (.faultClearFatal b) s = .next (clearFatal s)) ∧
    (∀ r rest, s.log.openRecs = r :: rest → basecampUp s = true → r.it.toNat + 10000000 ≤ s.work.now.toNat →
      ∃ t, exec .logRecordClose s = .next t ∧ t = { s with log := t.log } ∧ t.log.openRecs = rest ∧
        t.log.next = s.log.next + 1) ∧
    (∀ c i, c < 256 → (getCrag s.work c).marked = true → cragPresent s.work c = true → basecampUp s = true →
      (getSummit s.work (leaderOfCrag s.work c)).state = .reset → (getSummit s.work (leaderOfCrag s.work c)).runHeld = false →
      s.work.hold = none → (getCrag s.work c).slots = [] ∨ (unregister s.work c).hold = none →
      (sparesLeft s (cragPhys s.work c / 256 % 2)).head? = some i → ∃ t, exec (.cragSpared c []) s = .next t ∧
        cragPhys t.work c = cragPhys s.work c / 256 % 2 * 256 + i ∧ (getCrag t.work c).marked = false ∧
        (∀ k, k ≠ c → cragPhys t.work k = cragPhys s.work k))

/-- The management port's ICMPv6, JTAG, the SMBus target and the PMBus alert (R419, R554, R565; what the spec does not state of them is
log entry 39's). -/
def Obligations.SmallPorts : Prop :=
  ∀ (s : State),
    (∀ i q d, mgmtServed s = true → exec (.icmpv6Message (.echoRequest i q d)) s =
      .next { s with work := emit s.work (.icmp6 (.echoReply i q d)) }) ∧
    (∀ a, mgmtServed s = true → a ∈ ownAddrs s → ∃ t mac, exec (.icmpv6Message (.neighbourSolicit a)) s = .next t ∧
      t.work = emit s.work (.icmp6 (.neighbourAdvert a mac))) ∧
    exec (.jtagTapOperation .reset) s = .next { s with misc := { s.misc with jtagIr := .idcode, jtagDr := [] } } ∧
    (∀ ir, exec (.jtagTapOperation (.loadIr ir)) s = .next { s with misc := { s.misc with jtagIr := ir } }) ∧
    (∀ bits, s.misc.jtagIr = .idcode → s.fw.dead = false → bits.length = 32 → ∃ t, exec (.jtagTapOperation (.scanDr bits)) s = .next t ∧
      t.work = emit s.work (.jtag (bitList 32 0x19440001)) ∧ t.misc.jtagDr = bits) ∧
    (∀ bits b, s.misc.jtagIr = .bypass → s.fw.dead = false → ∃ t, exec (.jtagTapOperation (.scanDr (bits ++ [b]))) s = .next t ∧
      t.work = emit s.work (.jtag (false :: bits)) ∧ t.misc.jtagDr = [b]) ∧
    (∀ data, s.fw.dead = false → exec (.smbusTransaction false data) s = .next { s with misc := { s.misc with smbus := data } } ∧
      ∃ t bs, exec (.smbusTransaction true data) s = .next t ∧ bs.length = data.length ∧
        t.work = emit { s.work with fresh := s.work.fresh + data.length } (.smbus bs)) ∧
    exec .pmbusAlert s = .next { s with misc := { s.misc with pmbAlert := true } }

/-! ## Invariants -/

/-- Every memory operation keeps the canonical form of device memory: addresses strictly rising, and no entry equal to what an unlisted
address reads as. -/
def Obligations.MemoryKeepsItsCanonicalForm : Prop :=
  ∀ (w : Work) (r : Req) (a n : Nat) (bs : List Byte) (poison : Bool), w.memOk = true →
    (readPa w r a n).1.memOk = true ∧ (writePa w r a bs poison).memOk = true ∧
    (readPa w r a n).1.lost = w.lost ∧ (writePa w r a bs poison).lost = w.lost ∧
    (readPa w r a n).1.lostRows = w.lostRows ∧ (writePa w r a bs poison).lostRows = w.lostRows

/-- Every step keeps the collector consistent (R508, R509, Table 17.4): FC_FIRST holds a message exactly when VALID is set, OVERFLOW and
MERGED stand only beside it, MERGED saturates at 255, and FC_FATAL holds a message exactly when FATAL_VALID is set. -/
def Obligations.EveryStepKeepsTheCollectorConsistent : Prop :=
  ∀ (s t : State), s.collectorOk → step s = .next t → t.collectorOk
end

