-- ==== Sys2Proof/Laws/Tables.lean ====
section
/-! SUPPORT. Sparse tables and byte memories: what reading after writing gives, and that every operation keeps the canonical
form. -/

namespace Sys2Proof

section Get

variable {α : Type} [DecidableEq α] (d : Nat → α)

omit [DecidableEq α] in
theorem Tab.get_filter_ne (t : Tab α) (k j : Nat) :
    Tab.get d (t.filter fun e => e.1 ≠ k) j = if j = k then d j else Tab.get d t j := by
  induction t with
  | nil => simp [Tab.get]
  | cons e t ih =>
    obtain ⟨i, v⟩ := e
    by_cases hik : i = k
    · subst hik
      simp only [List.filter_cons, ne_eq, not_true_eq_false, decide_false, Bool.false_eq_true, if_false, ih]
      by_cases hji : j = i
      · simp [hji]
      · simp [hji, Tab.get, Ne.symm hji]
    · simp only [List.filter_cons, ne_eq, hik, not_false_eq_true, decide_true, if_true, Tab.get, ih]
      by_cases hij : i = j
      · subst hij; simp [hik]
      · simp [hij]

omit [DecidableEq α] in
theorem Tab.get_put (t : Tab α) (k j : Nat) (v : α) :
    Tab.get d (Tab.put t k v) j = if j = k then v else Tab.get d t j := by
  induction t with
  | nil =>
    by_cases h : j = k
    · simp [Tab.put, Tab.get, h]
    · simp [Tab.put, Tab.get, h, Ne.symm h]
  | cons e t ih =>
    obtain ⟨i, w⟩ := e
    unfold Tab.put
    split
    · by_cases h : j = k
      · simp [Tab.get, h]
      · simp [Tab.get, h, Ne.symm h]
    · split
      · rename_i _ hki
        subst hki
        by_cases h : j = k
        · simp [Tab.get, h]
        · simp [Tab.get, h, Ne.symm h]
      · rename_i hlt hne
        by_cases hij : i = j
        · subst hij
          simp [Tab.get, Ne.symm hne]
        · simp [Tab.get, hij, ih]

/-- Reading a table after a write. -/
theorem Tab.get_set (t : Tab α) (k j : Nat) (v : α) :
    Tab.get d (Tab.set d t k v) j = if j = k then v else Tab.get d t j := by
  unfold Tab.set
  split
  · rename_i hv
    rw [Tab.get_filter_ne]
    by_cases h : j = k
    · simp [h, hv]
    · simp [h]
  · exact Tab.get_put d t k j v

@[simp] theorem Tab.get_set_same (t : Tab α) (k : Nat) (v : α) : Tab.get d (Tab.set d t k v) k = v := by
  simp [Tab.get_set]

omit [DecidableEq α] in
theorem Tab.put_put (k : Nat) (v : α) : ∀ t : Tab α, Tab.put (Tab.put t k v) k v = Tab.put t k v
  | [] => by simp [Tab.put]
  | (j, w) :: t => by
    by_cases h : k < j
    · simp [Tab.put, h]
    · by_cases e : k = j
      · simp [Tab.put, e]
      · simp [Tab.put, h, e, Tab.put_put k v t]

/-- Writing a value twice writes it once. -/
theorem Tab.set_set (t : Tab α) (k : Nat) (v : α) : Tab.set d (Tab.set d t k v) k v = Tab.set d t k v := by
  unfold Tab.set
  split
  · simp [List.filter_filter]
  · exact Tab.put_put k v t

theorem Tab.get_set_ne (t : Tab α) {k j : Nat} (v : α) (h : j ≠ k) :
    Tab.get d (Tab.set d t k v) j = Tab.get d t j := by
  simp [Tab.get_set, h]

end Get

section Form

variable {α : Type} [DecidableEq α] (d : Nat → α)

theorem Tab.above_mono {b b' : Nat} (h : b' ≤ b) : ∀ t : Tab α, Tab.above d b t = true → Tab.above d b' t = true
  | [], _ => rfl
  | (j, v) :: t, ht => by
    simp only [Tab.above, Bool.and_eq_true, decide_eq_true_eq] at ht ⊢
    exact ⟨⟨by omega, ht.1.2⟩, ht.2⟩

theorem Tab.above_filter (p : Nat × α → Bool) : ∀ (b : Nat) (t : Tab α), Tab.above d b t = true →
    Tab.above d b (t.filter p) = true
  | _, [], _ => rfl
  | b, (j, v) :: t, ht => by
    simp only [Tab.above, Bool.and_eq_true, decide_eq_true_eq] at ht
    have ih := Tab.above_filter p (j + 1) t ht.2
    by_cases hp : p (j, v) = true
    · simp only [List.filter_cons, hp, if_true, Tab.above, Bool.and_eq_true, decide_eq_true_eq]
      exact ⟨ht.1, ih⟩
    · simp only [List.filter_cons, hp]
      exact Tab.above_mono d (by omega) _ ih

theorem Tab.above_put (v : α) (k : Nat) (hv : v ≠ d k) : ∀ (b : Nat) (t : Tab α), b ≤ k → Tab.above d b t = true →
    Tab.above d b (Tab.put t k v) = true
  | b, [], hb, _ => by simp [Tab.put, Tab.above, hb, hv]
  | b, (j, w) :: t, hb, ht => by
    simp only [Tab.above, Bool.and_eq_true, decide_eq_true_eq] at ht
    unfold Tab.put
    split
    · rename_i hkj
      simp only [Tab.above, Bool.and_eq_true, decide_eq_true_eq]
      exact ⟨⟨hb, by simp [hv]⟩, ⟨⟨by omega, ht.1.2⟩, ht.2⟩⟩
    · split
      · rename_i _ hkj
        subst hkj
        simp only [Tab.above, Bool.and_eq_true, decide_eq_true_eq]
        exact ⟨⟨hb, by simp [hv]⟩, ht.2⟩
      · rename_i h1 h2
        simp only [Tab.above, Bool.and_eq_true, decide_eq_true_eq]
        exact ⟨ht.1, Tab.above_put v k hv (j + 1) t (by omega) ht.2⟩

/-- A write keeps the canonical form. -/
theorem Tab.wf_set (t : Tab α) (k : Nat) (v : α) (h : Tab.wf d t = true) : Tab.wf d (Tab.set d t k v) = true := by
  unfold Tab.set
  split
  · exact Tab.above_filter d _ 0 t h
  · rename_i hv
    exact Tab.above_put d v k hv 0 t (Nat.zero_le _) h

/-- Dropping keys keeps the canonical form. -/
theorem Tab.wf_drop (p : Nat → Bool) (t : Tab α) (h : Tab.wf d t = true) : Tab.wf d (Tab.drop p t) = true :=
  Tab.above_filter d _ 0 t h

theorem Tab.above_drop_change (d' : Nat → α) (p : Nat → Bool) (hd : ∀ k, p k = false → d' k = d k) :
    ∀ (b : Nat) (t : Tab α), Tab.above d b t = true → Tab.above d' b (Tab.drop p t) = true
  | _, [], _ => rfl
  | b, (j, v) :: t, ht => by
    simp only [Tab.above, Bool.and_eq_true, decide_eq_true_eq] at ht
    have ih := Tab.above_drop_change d' p hd (j + 1) t ht.2
    unfold Tab.drop at ih ⊢
    by_cases hp : p j = true
    · simp only [List.filter_cons, hp, Bool.not_true, Bool.false_eq_true, if_false]
      exact Tab.above_mono d' (by omega) _ ih
    · have hf : p j = false := by simpa using hp
      simp only [List.filter_cons, hf, Bool.not_false, if_true, Tab.above, Bool.and_eq_true, decide_eq_true_eq]
      exact ⟨⟨ht.1.1, by rw [hd j hf]; exact ht.1.2⟩, ih⟩

/-- Dropping keys keeps the canonical form when what an unlisted key reads as changes at those keys only. -/
theorem Tab.wf_drop_change (d' : Nat → α) (p : Nat → Bool) (hd : ∀ k, p k = false → d' k = d k) (t : Tab α)
    (h : Tab.wf d t = true) : Tab.wf d' (Tab.drop p t) = true := Tab.above_drop_change d d' p hd 0 t h

theorem Tab.above_mapV (f : Nat → α → α) : ∀ (b : Nat) (t : Tab α), Tab.above d b t = true →
    Tab.above d b (Tab.mapV d f t) = true
  | _, [], _ => rfl
  | b, (j, v) :: t, ht => by
    simp only [Tab.above, Bool.and_eq_true, decide_eq_true_eq] at ht
    have ih := Tab.above_mapV f (j + 1) t ht.2
    unfold Tab.mapV Tab.cons
    split
    · exact Tab.above_mono d (by omega) _ ih
    · rename_i hv
      simp only [Tab.above, Bool.and_eq_true, decide_eq_true_eq]
      exact ⟨⟨ht.1.1, by simp [hv]⟩, ih⟩

/-- Changing every value keeps the canonical form. -/
theorem Tab.wf_mapV (f : Nat → α → α) (t : Tab α) (h : Tab.wf d t = true) : Tab.wf d (Tab.mapV d f t) = true :=
  Tab.above_mapV d f 0 t h

@[simp] theorem Tab.wf_nil : Tab.wf d ([] : Tab α) = true := rfl

end Form

/-! ## Memories -/

theorem Mem.get_set (m : Mem) (a x : Nat) (b : Byte) : Mem.get (Mem.set m a b) x = if x = a then b else Mem.get m x :=
  Tab.get_set memD m a x b

/-- One byte read after bytes are written. -/
theorem Mem.get_write (x : Nat) : ∀ (bs : List Byte) (m : Mem) (a : Nat),
    Mem.get (Mem.write m a bs) x = if a ≤ x ∧ x < a + bs.length then bs.getD (x - a) 0 else Mem.get m x
  | [], m, a => by rw [Mem.write, if_neg (by rw [List.length_nil]; omega)]
  | b :: bs, m, a => by
    rw [Mem.write, Mem.get_write x bs, Mem.get_set]
    by_cases h1 : x = a
    · subst h1
      rw [if_neg (by omega), if_pos rfl, if_pos (by simp)]
      simp
    · by_cases h2 : a + 1 ≤ x ∧ x < a + 1 + bs.length
      · have : x - a = (x - (a + 1)) + 1 := by omega
        simp only [h2, and_self, if_true, List.length_cons]
        rw [if_pos (by omega), this, List.getD_cons_succ]
      · simp only [h2, if_false, h1, List.length_cons]
        rw [if_neg (by omega)]

theorem Mem.get_write_outside (m : Mem) (a x : Nat) (bs : List Byte) (h : x < a ∨ a + bs.length ≤ x) :
    Mem.get (Mem.write m a bs) x = Mem.get m x := by
  rw [Mem.get_write, if_neg (by omega)]

/-- Reading back what was written. -/
theorem Mem.read_write (m : Mem) (a : Nat) (bs : List Byte) : Mem.read (Mem.write m a bs) a bs.length = bs := by
  apply List.ext_getElem
  · simp [Mem.read]
  · intro i h1 h2
    simp only [Mem.read, List.getElem_map, List.getElem_range]
    rw [Mem.get_write, if_pos (by omega)]
    simp [List.getD_eq_getElem?_getD, h2]

theorem Mem.wf_set (m : Mem) (a : Nat) (b : Byte) (h : Mem.wf m = true) : Mem.wf (Mem.set m a b) = true :=
  Tab.wf_set memD m a b h

/-- Writing bytes keeps the canonical form. -/
theorem Mem.wf_write : ∀ (bs : List Byte) (m : Mem) (a : Nat), Mem.wf m = true → Mem.wf (Mem.write m a bs) = true
  | [], _, _, h => h
  | b :: bs, m, a, h => Mem.wf_write bs _ (a + 1) (Mem.wf_set m a b h)

end Sys2Proof
end

