-- ==== Sys2Proof/Laws/State.lean ====
section
/-! SUPPORT. Updates of one unit of the data plane: every other field stays, and the unit reads as written. -/

namespace Sys2Proof.Machine

section
variable (w : Work) (c : Nat) (x : Crag)

@[simp] theorem setCrag_summits : (setCrag w c x).summits = w.summits := rfl
@[simp] theorem setCrag_belays : (setCrag w c x).belays = w.belays := rfl
@[simp] theorem setCrag_posts : (setCrag w c x).posts = w.posts := rfl
@[simp] theorem setCrag_sched : (setCrag w c x).sched = w.sched := rfl
@[simp] theorem setCrag_tens : (setCrag w c x).tens = w.tens := rfl
@[simp] theorem setCrag_slices : (setCrag w c x).slices = w.slices := rfl
@[simp] theorem setCrag_chs : (setCrag w c x).chs = w.chs := rfl
@[simp] theorem setCrag_dram : (setCrag w c x).dram = w.dram := rfl
@[simp] theorem setCrag_spread : (setCrag w c x).spread = w.spread := rfl
@[simp] theorem setCrag_errs : (setCrag w c x).errs = w.errs := rfl
@[simp] theorem setCrag_lost : (setCrag w c x).lost = w.lost := rfl
@[simp] theorem setCrag_lostRows : (setCrag w c x).lostRows = w.lostRows := rfl
@[simp] theorem setCrag_retired : (setCrag w c x).retired = w.retired := rfl
@[simp] theorem setCrag_upds : (setCrag w c x).upds = w.upds := rfl
@[simp] theorem setCrag_mcast : (setCrag w c x).mcast = w.mcast := rfl
@[simp] theorem setCrag_od : (setCrag w c x).od = w.od := rfl
@[simp] theorem setCrag_now : (setCrag w c x).now = w.now := rfl
@[simp] theorem setCrag_dstate : (setCrag w c x).dstate = w.dstate := rfl
@[simp] theorem setCrag_stopCause : (setCrag w c x).stopCause = w.stopCause := rfl
@[simp] theorem setCrag_fuses : (setCrag w c x).fuses = w.fuses := rfl
@[simp] theorem setCrag_cragMap : (setCrag w c x).cragMap = w.cragMap := rfl
@[simp] theorem setCrag_withdrawn : (setCrag w c x).withdrawn = w.withdrawn := rfl
@[simp] theorem setCrag_invals : (setCrag w c x).invals = w.invals := rfl
@[simp] theorem setCrag_ptlb : (setCrag w c x).ptlb = w.ptlb := rfl
@[simp] theorem setCrag_remotes : (setCrag w c x).remotes = w.remotes := rfl
@[simp] theorem setCrag_nextTag : (setCrag w c x).nextTag = w.nextTag := rfl
@[simp] theorem setCrag_routes : (setCrag w c x).routes = w.routes := rfl
@[simp] theorem setCrag_bar2Acks : (setCrag w c x).bar2Acks = w.bar2Acks := rfl
@[simp] theorem setCrag_hostWait : (setCrag w c x).hostWait = w.hostWait := rfl
@[simp] theorem setCrag_fenceDrop : (setCrag w c x).fenceDrop = w.fenceDrop := rfl
@[simp] theorem setCrag_fenceSeen : (setCrag w c x).fenceSeen = w.fenceSeen := rfl
@[simp] theorem setCrag_cplErr : (setCrag w c x).cplErr = w.cplErr := rfl
@[simp] theorem setCrag_priFail : (setCrag w c x).priFail = w.priFail := rfl
@[simp] theorem setCrag_epRx : (setCrag w c x).epRx = w.epRx := rfl
@[simp] theorem setCrag_hostGone : (setCrag w c x).hostGone = w.hostGone := rfl
@[simp] theorem setCrag_digests : (setCrag w c x).digests = w.digests := rfl
@[simp] theorem setCrag_suppress : (setCrag w c x).suppress = w.suppress := rfl
@[simp] theorem setCrag_standby : (setCrag w c x).standby = w.standby := rfl
@[simp] theorem setCrag_duplex : (setCrag w c x).duplex = w.duplex := rfl
@[simp] theorem setCrag_share : (setCrag w c x).share = w.share := rfl
@[simp] theorem setCrag_mirror : (setCrag w c x).mirror = w.mirror := rfl
@[simp] theorem setCrag_fwding : (setCrag w c x).fwding = w.fwding := rfl
@[simp] theorem setCrag_fwdData : (setCrag w c x).fwdData = w.fwdData := rfl
@[simp] theorem setCrag_ports : (setCrag w c x).ports = w.ports := rfl
@[simp] theorem setCrag_portsOn : (setCrag w c x).portsOn = w.portsOn := rfl
@[simp] theorem setCrag_cacheCfg : (setCrag w c x).cacheCfg = w.cacheCfg := rfl
@[simp] theorem setCrag_loopQ : (setCrag w c x).loopQ = w.loopQ := rfl
@[simp] theorem setCrag_faultQ : (setCrag w c x).faultQ = w.faultQ := rfl
@[simp] theorem setCrag_dropCe : (setCrag w c x).dropCe = w.dropCe := rfl
@[simp] theorem setCrag_out : (setCrag w c x).out = w.out := rfl
@[simp] theorem setCrag_waiting : (setCrag w c x).waiting = w.waiting := rfl
@[simp] theorem setCrag_hold : (setCrag w c x).hold = w.hold := rfl
@[simp] theorem setCrag_again : (setCrag w c x).again = w.again := rfl
@[simp] theorem setCrag_fresh : (setCrag w c x).fresh = w.fresh := rfl

end

section
variable (w : Work) (n : Nat) (x : Summit)

@[simp] theorem setSummit_crags : (setSummit w n x).crags = w.crags := rfl
@[simp] theorem setSummit_belays : (setSummit w n x).belays = w.belays := rfl
@[simp] theorem setSummit_posts : (setSummit w n x).posts = w.posts := rfl
@[simp] theorem setSummit_sched : (setSummit w n x).sched = w.sched := rfl
@[simp] theorem setSummit_tens : (setSummit w n x).tens = w.tens := rfl
@[simp] theorem setSummit_slices : (setSummit w n x).slices = w.slices := rfl
@[simp] theorem setSummit_chs : (setSummit w n x).chs = w.chs := rfl
@[simp] theorem setSummit_dram : (setSummit w n x).dram = w.dram := rfl
@[simp] theorem setSummit_spread : (setSummit w n x).spread = w.spread := rfl
@[simp] theorem setSummit_errs : (setSummit w n x).errs = w.errs := rfl
@[simp] theorem setSummit_lost : (setSummit w n x).lost = w.lost := rfl
@[simp] theorem setSummit_lostRows : (setSummit w n x).lostRows = w.lostRows := rfl
@[simp] theorem setSummit_retired : (setSummit w n x).retired = w.retired := rfl
@[simp] theorem setSummit_upds : (setSummit w n x).upds = w.upds := rfl
@[simp] theorem setSummit_mcast : (setSummit w n x).mcast = w.mcast := rfl
@[simp] theorem setSummit_od : (setSummit w n x).od = w.od := rfl
@[simp] theorem setSummit_now : (setSummit w n x).now = w.now := rfl
@[simp] theorem setSummit_dstate : (setSummit w n x).dstate = w.dstate := rfl
@[simp] theorem setSummit_stopCause : (setSummit w n x).stopCause = w.stopCause := rfl
@[simp] theorem setSummit_fuses : (setSummit w n x).fuses = w.fuses := rfl
@[simp] theorem setSummit_cragMap : (setSummit w n x).cragMap = w.cragMap := rfl
@[simp] theorem setSummit_withdrawn : (setSummit w n x).withdrawn = w.withdrawn := rfl
@[simp] theorem setSummit_invals : (setSummit w n x).invals = w.invals := rfl
@[simp] theorem setSummit_ptlb : (setSummit w n x).ptlb = w.ptlb := rfl
@[simp] theorem setSummit_remotes : (setSummit w n x).remotes = w.remotes := rfl
@[simp] theorem setSummit_nextTag : (setSummit w n x).nextTag = w.nextTag := rfl
@[simp] theorem setSummit_routes : (setSummit w n x).routes = w.routes := rfl
@[simp] theorem setSummit_bar2Acks : (setSummit w n x).bar2Acks = w.bar2Acks := rfl
@[simp] theorem setSummit_hostWait : (setSummit w n x).hostWait = w.hostWait := rfl
@[simp] theorem setSummit_fenceDrop : (setSummit w n x).fenceDrop = w.fenceDrop := rfl
@[simp] theorem setSummit_fenceSeen : (setSummit w n x).fenceSeen = w.fenceSeen := rfl
@[simp] theorem setSummit_cplErr : (setSummit w n x).cplErr = w.cplErr := rfl
@[simp] theorem setSummit_priFail : (setSummit w n x).priFail = w.priFail := rfl
@[simp] theorem setSummit_epRx : (setSummit w n x).epRx = w.epRx := rfl
@[simp] theorem setSummit_hostGone : (setSummit w n x).hostGone = w.hostGone := rfl
@[simp] theorem setSummit_digests : (setSummit w n x).digests = w.digests := rfl
@[simp] theorem setSummit_suppress : (setSummit w n x).suppress = w.suppress := rfl
@[simp] theorem setSummit_standby : (setSummit w n x).standby = w.standby := rfl
@[simp] theorem setSummit_duplex : (setSummit w n x).duplex = w.duplex := rfl
@[simp] theorem setSummit_share : (setSummit w n x).share = w.share := rfl
@[simp] theorem setSummit_mirror : (setSummit w n x).mirror = w.mirror := rfl
@[simp] theorem setSummit_fwding : (setSummit w n x).fwding = w.fwding := rfl
@[simp] theorem setSummit_fwdData : (setSummit w n x).fwdData = w.fwdData := rfl
@[simp] theorem setSummit_ports : (setSummit w n x).ports = w.ports := rfl
@[simp] theorem setSummit_portsOn : (setSummit w n x).portsOn = w.portsOn := rfl
@[simp] theorem setSummit_cacheCfg : (setSummit w n x).cacheCfg = w.cacheCfg := rfl
@[simp] theorem setSummit_loopQ : (setSummit w n x).loopQ = w.loopQ := rfl
@[simp] theorem setSummit_faultQ : (setSummit w n x).faultQ = w.faultQ := rfl
@[simp] theorem setSummit_dropCe : (setSummit w n x).dropCe = w.dropCe := rfl
@[simp] theorem setSummit_out : (setSummit w n x).out = w.out := rfl
@[simp] theorem setSummit_waiting : (setSummit w n x).waiting = w.waiting := rfl
@[simp] theorem setSummit_hold : (setSummit w n x).hold = w.hold := rfl
@[simp] theorem setSummit_again : (setSummit w n x).again = w.again := rfl
@[simp] theorem setSummit_fresh : (setSummit w n x).fresh = w.fresh := rfl

end

section
variable (w : Work) (t : Nat) (x : Ten)

@[simp] theorem setTen_summits : (setTen w t x).summits = w.summits := rfl
@[simp] theorem setTen_crags : (setTen w t x).crags = w.crags := rfl
@[simp] theorem setTen_belays : (setTen w t x).belays = w.belays := rfl
@[simp] theorem setTen_posts : (setTen w t x).posts = w.posts := rfl
@[simp] theorem setTen_sched : (setTen w t x).sched = w.sched := rfl
@[simp] theorem setTen_slices : (setTen w t x).slices = w.slices := rfl
@[simp] theorem setTen_chs : (setTen w t x).chs = w.chs := rfl
@[simp] theorem setTen_dram : (setTen w t x).dram = w.dram := rfl
@[simp] theorem setTen_spread : (setTen w t x).spread = w.spread := rfl
@[simp] theorem setTen_errs : (setTen w t x).errs = w.errs := rfl
@[simp] theorem setTen_lost : (setTen w t x).lost = w.lost := rfl
@[simp] theorem setTen_lostRows : (setTen w t x).lostRows = w.lostRows := rfl
@[simp] theorem setTen_retired : (setTen w t x).retired = w.retired := rfl
@[simp] theorem setTen_upds : (setTen w t x).upds = w.upds := rfl
@[simp] theorem setTen_mcast : (setTen w t x).mcast = w.mcast := rfl
@[simp] theorem setTen_od : (setTen w t x).od = w.od := rfl
@[simp] theorem setTen_now : (setTen w t x).now = w.now := rfl
@[simp] theorem setTen_dstate : (setTen w t x).dstate = w.dstate := rfl
@[simp] theorem setTen_stopCause : (setTen w t x).stopCause = w.stopCause := rfl
@[simp] theorem setTen_fuses : (setTen w t x).fuses = w.fuses := rfl
@[simp] theorem setTen_cragMap : (setTen w t x).cragMap = w.cragMap := rfl
@[simp] theorem setTen_withdrawn : (setTen w t x).withdrawn = w.withdrawn := rfl
@[simp] theorem setTen_invals : (setTen w t x).invals = w.invals := rfl
@[simp] theorem setTen_ptlb : (setTen w t x).ptlb = w.ptlb := rfl
@[simp] theorem setTen_remotes : (setTen w t x).remotes = w.remotes := rfl
@[simp] theorem setTen_nextTag : (setTen w t x).nextTag = w.nextTag := rfl
@[simp] theorem setTen_routes : (setTen w t x).routes = w.routes := rfl
@[simp] theorem setTen_bar2Acks : (setTen w t x).bar2Acks = w.bar2Acks := rfl
@[simp] theorem setTen_hostWait : (setTen w t x).hostWait = w.hostWait := rfl
@[simp] theorem setTen_fenceDrop : (setTen w t x).fenceDrop = w.fenceDrop := rfl
@[simp] theorem setTen_fenceSeen : (setTen w t x).fenceSeen = w.fenceSeen := rfl
@[simp] theorem setTen_cplErr : (setTen w t x).cplErr = w.cplErr := rfl
@[simp] theorem setTen_priFail : (setTen w t x).priFail = w.priFail := rfl
@[simp] theorem setTen_epRx : (setTen w t x).epRx = w.epRx := rfl
@[simp] theorem setTen_hostGone : (setTen w t x).hostGone = w.hostGone := rfl
@[simp] theorem setTen_digests : (setTen w t x).digests = w.digests := rfl
@[simp] theorem setTen_suppress : (setTen w t x).suppress = w.suppress := rfl
@[simp] theorem setTen_standby : (setTen w t x).standby = w.standby := rfl
@[simp] theorem setTen_duplex : (setTen w t x).duplex = w.duplex := rfl
@[simp] theorem setTen_share : (setTen w t x).share = w.share := rfl
@[simp] theorem setTen_mirror : (setTen w t x).mirror = w.mirror := rfl
@[simp] theorem setTen_fwding : (setTen w t x).fwding = w.fwding := rfl
@[simp] theorem setTen_fwdData : (setTen w t x).fwdData = w.fwdData := rfl
@[simp] theorem setTen_ports : (setTen w t x).ports = w.ports := rfl
@[simp] theorem setTen_portsOn : (setTen w t x).portsOn = w.portsOn := rfl
@[simp] theorem setTen_cacheCfg : (setTen w t x).cacheCfg = w.cacheCfg := rfl
@[simp] theorem setTen_loopQ : (setTen w t x).loopQ = w.loopQ := rfl
@[simp] theorem setTen_faultQ : (setTen w t x).faultQ = w.faultQ := rfl
@[simp] theorem setTen_dropCe : (setTen w t x).dropCe = w.dropCe := rfl
@[simp] theorem setTen_out : (setTen w t x).out = w.out := rfl
@[simp] theorem setTen_waiting : (setTen w t x).waiting = w.waiting := rfl
@[simp] theorem setTen_hold : (setTen w t x).hold = w.hold := rfl
@[simp] theorem setTen_again : (setTen w t x).again = w.again := rfl
@[simp] theorem setTen_fresh : (setTen w t x).fresh = w.fresh := rfl

end

section
variable (w : Work) (d : Nat) (x : Slice)

@[simp] theorem setSlice_summits : (setSlice w d x).summits = w.summits := rfl
@[simp] theorem setSlice_crags : (setSlice w d x).crags = w.crags := rfl
@[simp] theorem setSlice_belays : (setSlice w d x).belays = w.belays := rfl
@[simp] theorem setSlice_posts : (setSlice w d x).posts = w.posts := rfl
@[simp] theorem setSlice_sched : (setSlice w d x).sched = w.sched := rfl
@[simp] theorem setSlice_tens : (setSlice w d x).tens = w.tens := rfl
@[simp] theorem setSlice_chs : (setSlice w d x).chs = w.chs := rfl
@[simp] theorem setSlice_dram : (setSlice w d x).dram = w.dram := rfl
@[simp] theorem setSlice_spread : (setSlice w d x).spread = w.spread := rfl
@[simp] theorem setSlice_errs : (setSlice w d x).errs = w.errs := rfl
@[simp] theorem setSlice_lost : (setSlice w d x).lost = w.lost := rfl
@[simp] theorem setSlice_lostRows : (setSlice w d x).lostRows = w.lostRows := rfl
@[simp] theorem setSlice_retired : (setSlice w d x).retired = w.retired := rfl
@[simp] theorem setSlice_upds : (setSlice w d x).upds = w.upds := rfl
@[simp] theorem setSlice_mcast : (setSlice w d x).mcast = w.mcast := rfl
@[simp] theorem setSlice_od : (setSlice w d x).od = w.od := rfl
@[simp] theorem setSlice_now : (setSlice w d x).now = w.now := rfl
@[simp] theorem setSlice_dstate : (setSlice w d x).dstate = w.dstate := rfl
@[simp] theorem setSlice_stopCause : (setSlice w d x).stopCause = w.stopCause := rfl
@[simp] theorem setSlice_fuses : (setSlice w d x).fuses = w.fuses := rfl
@[simp] theorem setSlice_cragMap : (setSlice w d x).cragMap = w.cragMap := rfl
@[simp] theorem setSlice_withdrawn : (setSlice w d x).withdrawn = w.withdrawn := rfl
@[simp] theorem setSlice_invals : (setSlice w d x).invals = w.invals := rfl
@[simp] theorem setSlice_ptlb : (setSlice w d x).ptlb = w.ptlb := rfl
@[simp] theorem setSlice_remotes : (setSlice w d x).remotes = w.remotes := rfl
@[simp] theorem setSlice_nextTag : (setSlice w d x).nextTag = w.nextTag := rfl
@[simp] theorem setSlice_routes : (setSlice w d x).routes = w.routes := rfl
@[simp] theorem setSlice_bar2Acks : (setSlice w d x).bar2Acks = w.bar2Acks := rfl
@[simp] theorem setSlice_hostWait : (setSlice w d x).hostWait = w.hostWait := rfl
@[simp] theorem setSlice_fenceDrop : (setSlice w d x).fenceDrop = w.fenceDrop := rfl
@[simp] theorem setSlice_fenceSeen : (setSlice w d x).fenceSeen = w.fenceSeen := rfl
@[simp] theorem setSlice_cplErr : (setSlice w d x).cplErr = w.cplErr := rfl
@[simp] theorem setSlice_priFail : (setSlice w d x).priFail = w.priFail := rfl
@[simp] theorem setSlice_epRx : (setSlice w d x).epRx = w.epRx := rfl
@[simp] theorem setSlice_hostGone : (setSlice w d x).hostGone = w.hostGone := rfl
@[simp] theorem setSlice_digests : (setSlice w d x).digests = w.digests := rfl
@[simp] theorem setSlice_suppress : (setSlice w d x).suppress = w.suppress := rfl
@[simp] theorem setSlice_standby : (setSlice w d x).standby = w.standby := rfl
@[simp] theorem setSlice_duplex : (setSlice w d x).duplex = w.duplex := rfl
@[simp] theorem setSlice_share : (setSlice w d x).share = w.share := rfl
@[simp] theorem setSlice_mirror : (setSlice w d x).mirror = w.mirror := rfl
@[simp] theorem setSlice_fwding : (setSlice w d x).fwding = w.fwding := rfl
@[simp] theorem setSlice_fwdData : (setSlice w d x).fwdData = w.fwdData := rfl
@[simp] theorem setSlice_ports : (setSlice w d x).ports = w.ports := rfl
@[simp] theorem setSlice_portsOn : (setSlice w d x).portsOn = w.portsOn := rfl
@[simp] theorem setSlice_cacheCfg : (setSlice w d x).cacheCfg = w.cacheCfg := rfl
@[simp] theorem setSlice_loopQ : (setSlice w d x).loopQ = w.loopQ := rfl
@[simp] theorem setSlice_faultQ : (setSlice w d x).faultQ = w.faultQ := rfl
@[simp] theorem setSlice_dropCe : (setSlice w d x).dropCe = w.dropCe := rfl
@[simp] theorem setSlice_out : (setSlice w d x).out = w.out := rfl
@[simp] theorem setSlice_waiting : (setSlice w d x).waiting = w.waiting := rfl
@[simp] theorem setSlice_hold : (setSlice w d x).hold = w.hold := rfl
@[simp] theorem setSlice_again : (setSlice w d x).again = w.again := rfl
@[simp] theorem setSlice_fresh : (setSlice w d x).fresh = w.fresh := rfl

end

section
variable (w : Work) (c : Nat) (x : MemCh)

@[simp] theorem setCh_summits : (setCh w c x).summits = w.summits := rfl
@[simp] theorem setCh_crags : (setCh w c x).crags = w.crags := rfl
@[simp] theorem setCh_belays : (setCh w c x).belays = w.belays := rfl
@[simp] theorem setCh_posts : (setCh w c x).posts = w.posts := rfl
@[simp] theorem setCh_sched : (setCh w c x).sched = w.sched := rfl
@[simp] theorem setCh_tens : (setCh w c x).tens = w.tens := rfl
@[simp] theorem setCh_slices : (setCh w c x).slices = w.slices := rfl
@[simp] theorem setCh_dram : (setCh w c x).dram = w.dram := rfl
@[simp] theorem setCh_spread : (setCh w c x).spread = w.spread := rfl
@[simp] theorem setCh_errs : (setCh w c x).errs = w.errs := rfl
@[simp] theorem setCh_lost : (setCh w c x).lost = w.lost := rfl
@[simp] theorem setCh_lostRows : (setCh w c x).lostRows = w.lostRows := rfl
@[simp] theorem setCh_retired : (setCh w c x).retired = w.retired := rfl
@[simp] theorem setCh_upds : (setCh w c x).upds = w.upds := rfl
@[simp] theorem setCh_mcast : (setCh w c x).mcast = w.mcast := rfl
@[simp] theorem setCh_od : (setCh w c x).od = w.od := rfl
@[simp] theorem setCh_now : (setCh w c x).now = w.now := rfl
@[simp] theorem setCh_dstate : (setCh w c x).dstate = w.dstate := rfl
@[simp] theorem setCh_stopCause : (setCh w c x).stopCause = w.stopCause := rfl
@[simp] theorem setCh_fuses : (setCh w c x).fuses = w.fuses := rfl
@[simp] theorem setCh_cragMap : (setCh w c x).cragMap = w.cragMap := rfl
@[simp] theorem setCh_withdrawn : (setCh w c x).withdrawn = w.withdrawn := rfl
@[simp] theorem setCh_invals : (setCh w c x).invals = w.invals := rfl
@[simp] theorem setCh_ptlb : (setCh w c x).ptlb = w.ptlb := rfl
@[simp] theorem setCh_remotes : (setCh w c x).remotes = w.remotes := rfl
@[simp] theorem setCh_nextTag : (setCh w c x).nextTag = w.nextTag := rfl
@[simp] theorem setCh_routes : (setCh w c x).routes = w.routes := rfl
@[simp] theorem setCh_bar2Acks : (setCh w c x).bar2Acks = w.bar2Acks := rfl
@[simp] theorem setCh_hostWait : (setCh w c x).hostWait = w.hostWait := rfl
@[simp] theorem setCh_fenceDrop : (setCh w c x).fenceDrop = w.fenceDrop := rfl
@[simp] theorem setCh_fenceSeen : (setCh w c x).fenceSeen = w.fenceSeen := rfl
@[simp] theorem setCh_cplErr : (setCh w c x).cplErr = w.cplErr := rfl
@[simp] theorem setCh_priFail : (setCh w c x).priFail = w.priFail := rfl
@[simp] theorem setCh_epRx : (setCh w c x).epRx = w.epRx := rfl
@[simp] theorem setCh_hostGone : (setCh w c x).hostGone = w.hostGone := rfl
@[simp] theorem setCh_digests : (setCh w c x).digests = w.digests := rfl
@[simp] theorem setCh_suppress : (setCh w c x).suppress = w.suppress := rfl
@[simp] theorem setCh_standby : (setCh w c x).standby = w.standby := rfl
@[simp] theorem setCh_duplex : (setCh w c x).duplex = w.duplex := rfl
@[simp] theorem setCh_share : (setCh w c x).share = w.share := rfl
@[simp] theorem setCh_mirror : (setCh w c x).mirror = w.mirror := rfl
@[simp] theorem setCh_fwding : (setCh w c x).fwding = w.fwding := rfl
@[simp] theorem setCh_fwdData : (setCh w c x).fwdData = w.fwdData := rfl
@[simp] theorem setCh_ports : (setCh w c x).ports = w.ports := rfl
@[simp] theorem setCh_portsOn : (setCh w c x).portsOn = w.portsOn := rfl
@[simp] theorem setCh_cacheCfg : (setCh w c x).cacheCfg = w.cacheCfg := rfl
@[simp] theorem setCh_loopQ : (setCh w c x).loopQ = w.loopQ := rfl
@[simp] theorem setCh_faultQ : (setCh w c x).faultQ = w.faultQ := rfl
@[simp] theorem setCh_dropCe : (setCh w c x).dropCe = w.dropCe := rfl
@[simp] theorem setCh_out : (setCh w c x).out = w.out := rfl
@[simp] theorem setCh_waiting : (setCh w c x).waiting = w.waiting := rfl
@[simp] theorem setCh_hold : (setCh w c x).hold = w.hold := rfl
@[simp] theorem setCh_again : (setCh w c x).again = w.again := rfl
@[simp] theorem setCh_fresh : (setCh w c x).fresh = w.fresh := rfl

end

section
variable (w : Work) (b : Nat) (x : Belay)

@[simp] theorem setBelay_summits : (setBelay w b x).summits = w.summits := rfl
@[simp] theorem setBelay_crags : (setBelay w b x).crags = w.crags := rfl
@[simp] theorem setBelay_posts : (setBelay w b x).posts = w.posts := rfl
@[simp] theorem setBelay_sched : (setBelay w b x).sched = w.sched := rfl
@[simp] theorem setBelay_tens : (setBelay w b x).tens = w.tens := rfl
@[simp] theorem setBelay_slices : (setBelay w b x).slices = w.slices := rfl
@[simp] theorem setBelay_chs : (setBelay w b x).chs = w.chs := rfl
@[simp] theorem setBelay_dram : (setBelay w b x).dram = w.dram := rfl
@[simp] theorem setBelay_spread : (setBelay w b x).spread = w.spread := rfl
@[simp] theorem setBelay_errs : (setBelay w b x).errs = w.errs := rfl
@[simp] theorem setBelay_lost : (setBelay w b x).lost = w.lost := rfl
@[simp] theorem setBelay_lostRows : (setBelay w b x).lostRows = w.lostRows := rfl
@[simp] theorem setBelay_retired : (setBelay w b x).retired = w.retired := rfl
@[simp] theorem setBelay_upds : (setBelay w b x).upds = w.upds := rfl
@[simp] theorem setBelay_mcast : (setBelay w b x).mcast = w.mcast := rfl
@[simp] theorem setBelay_od : (setBelay w b x).od = w.od := rfl
@[simp] theorem setBelay_now : (setBelay w b x).now = w.now := rfl
@[simp] theorem setBelay_dstate : (setBelay w b x).dstate = w.dstate := rfl
@[simp] theorem setBelay_stopCause : (setBelay w b x).stopCause = w.stopCause := rfl
@[simp] theorem setBelay_fuses : (setBelay w b x).fuses = w.fuses := rfl
@[simp] theorem setBelay_cragMap : (setBelay w b x).cragMap = w.cragMap := rfl
@[simp] theorem setBelay_withdrawn : (setBelay w b x).withdrawn = w.withdrawn := rfl
@[simp] theorem setBelay_invals : (setBelay w b x).invals = w.invals := rfl
@[simp] theorem setBelay_ptlb : (setBelay w b x).ptlb = w.ptlb := rfl
@[simp] theorem setBelay_remotes : (setBelay w b x).remotes = w.remotes := rfl
@[simp] theorem setBelay_nextTag : (setBelay w b x).nextTag = w.nextTag := rfl
@[simp] theorem setBelay_routes : (setBelay w b x).routes = w.routes := rfl
@[simp] theorem setBelay_bar2Acks : (setBelay w b x).bar2Acks = w.bar2Acks := rfl
@[simp] theorem setBelay_hostWait : (setBelay w b x).hostWait = w.hostWait := rfl
@[simp] theorem setBelay_fenceDrop : (setBelay w b x).fenceDrop = w.fenceDrop := rfl
@[simp] theorem setBelay_fenceSeen : (setBelay w b x).fenceSeen = w.fenceSeen := rfl
@[simp] theorem setBelay_cplErr : (setBelay w b x).cplErr = w.cplErr := rfl
@[simp] theorem setBelay_priFail : (setBelay w b x).priFail = w.priFail := rfl
@[simp] theorem setBelay_epRx : (setBelay w b x).epRx = w.epRx := rfl
@[simp] theorem setBelay_hostGone : (setBelay w b x).hostGone = w.hostGone := rfl
@[simp] theorem setBelay_digests : (setBelay w b x).digests = w.digests := rfl
@[simp] theorem setBelay_suppress : (setBelay w b x).suppress = w.suppress := rfl
@[simp] theorem setBelay_standby : (setBelay w b x).standby = w.standby := rfl
@[simp] theorem setBelay_duplex : (setBelay w b x).duplex = w.duplex := rfl
@[simp] theorem setBelay_share : (setBelay w b x).share = w.share := rfl
@[simp] theorem setBelay_mirror : (setBelay w b x).mirror = w.mirror := rfl
@[simp] theorem setBelay_fwding : (setBelay w b x).fwding = w.fwding := rfl
@[simp] theorem setBelay_fwdData : (setBelay w b x).fwdData = w.fwdData := rfl
@[simp] theorem setBelay_ports : (setBelay w b x).ports = w.ports := rfl
@[simp] theorem setBelay_portsOn : (setBelay w b x).portsOn = w.portsOn := rfl
@[simp] theorem setBelay_cacheCfg : (setBelay w b x).cacheCfg = w.cacheCfg := rfl
@[simp] theorem setBelay_loopQ : (setBelay w b x).loopQ = w.loopQ := rfl
@[simp] theorem setBelay_faultQ : (setBelay w b x).faultQ = w.faultQ := rfl
@[simp] theorem setBelay_dropCe : (setBelay w b x).dropCe = w.dropCe := rfl
@[simp] theorem setBelay_out : (setBelay w b x).out = w.out := rfl
@[simp] theorem setBelay_waiting : (setBelay w b x).waiting = w.waiting := rfl
@[simp] theorem setBelay_hold : (setBelay w b x).hold = w.hold := rfl
@[simp] theorem setBelay_again : (setBelay w b x).again = w.again := rfl
@[simp] theorem setBelay_fresh : (setBelay w b x).fresh = w.fresh := rfl

end

section
variable (w : Work) (u : Nat) (x : UpdUnit)

@[simp] theorem setUpd_summits : (setUpd w u x).summits = w.summits := rfl
@[simp] theorem setUpd_crags : (setUpd w u x).crags = w.crags := rfl
@[simp] theorem setUpd_belays : (setUpd w u x).belays = w.belays := rfl
@[simp] theorem setUpd_posts : (setUpd w u x).posts = w.posts := rfl
@[simp] theorem setUpd_sched : (setUpd w u x).sched = w.sched := rfl
@[simp] theorem setUpd_tens : (setUpd w u x).tens = w.tens := rfl
@[simp] theorem setUpd_slices : (setUpd w u x).slices = w.slices := rfl
@[simp] theorem setUpd_chs : (setUpd w u x).chs = w.chs := rfl
@[simp] theorem setUpd_dram : (setUpd w u x).dram = w.dram := rfl
@[simp] theorem setUpd_spread : (setUpd w u x).spread = w.spread := rfl
@[simp] theorem setUpd_errs : (setUpd w u x).errs = w.errs := rfl
@[simp] theorem setUpd_lost : (setUpd w u x).lost = w.lost := rfl
@[simp] theorem setUpd_lostRows : (setUpd w u x).lostRows = w.lostRows := rfl
@[simp] theorem setUpd_retired : (setUpd w u x).retired = w.retired := rfl
@[simp] theorem setUpd_mcast : (setUpd w u x).mcast = w.mcast := rfl
@[simp] theorem setUpd_od : (setUpd w u x).od = w.od := rfl
@[simp] theorem setUpd_now : (setUpd w u x).now = w.now := rfl
@[simp] theorem setUpd_dstate : (setUpd w u x).dstate = w.dstate := rfl
@[simp] theorem setUpd_stopCause : (setUpd w u x).stopCause = w.stopCause := rfl
@[simp] theorem setUpd_fuses : (setUpd w u x).fuses = w.fuses := rfl
@[simp] theorem setUpd_cragMap : (setUpd w u x).cragMap = w.cragMap := rfl
@[simp] theorem setUpd_withdrawn : (setUpd w u x).withdrawn = w.withdrawn := rfl
@[simp] theorem setUpd_invals : (setUpd w u x).invals = w.invals := rfl
@[simp] theorem setUpd_ptlb : (setUpd w u x).ptlb = w.ptlb := rfl
@[simp] theorem setUpd_remotes : (setUpd w u x).remotes = w.remotes := rfl
@[simp] theorem setUpd_nextTag : (setUpd w u x).nextTag = w.nextTag := rfl
@[simp] theorem setUpd_routes : (setUpd w u x).routes = w.routes := rfl
@[simp] theorem setUpd_bar2Acks : (setUpd w u x).bar2Acks = w.bar2Acks := rfl
@[simp] theorem setUpd_hostWait : (setUpd w u x).hostWait = w.hostWait := rfl
@[simp] theorem setUpd_fenceDrop : (setUpd w u x).fenceDrop = w.fenceDrop := rfl
@[simp] theorem setUpd_fenceSeen : (setUpd w u x).fenceSeen = w.fenceSeen := rfl
@[simp] theorem setUpd_cplErr : (setUpd w u x).cplErr = w.cplErr := rfl
@[simp] theorem setUpd_priFail : (setUpd w u x).priFail = w.priFail := rfl
@[simp] theorem setUpd_epRx : (setUpd w u x).epRx = w.epRx := rfl
@[simp] theorem setUpd_hostGone : (setUpd w u x).hostGone = w.hostGone := rfl
@[simp] theorem setUpd_digests : (setUpd w u x).digests = w.digests := rfl
@[simp] theorem setUpd_suppress : (setUpd w u x).suppress = w.suppress := rfl
@[simp] theorem setUpd_standby : (setUpd w u x).standby = w.standby := rfl
@[simp] theorem setUpd_duplex : (setUpd w u x).duplex = w.duplex := rfl
@[simp] theorem setUpd_share : (setUpd w u x).share = w.share := rfl
@[simp] theorem setUpd_mirror : (setUpd w u x).mirror = w.mirror := rfl
@[simp] theorem setUpd_fwding : (setUpd w u x).fwding = w.fwding := rfl
@[simp] theorem setUpd_fwdData : (setUpd w u x).fwdData = w.fwdData := rfl
@[simp] theorem setUpd_ports : (setUpd w u x).ports = w.ports := rfl
@[simp] theorem setUpd_portsOn : (setUpd w u x).portsOn = w.portsOn := rfl
@[simp] theorem setUpd_cacheCfg : (setUpd w u x).cacheCfg = w.cacheCfg := rfl
@[simp] theorem setUpd_loopQ : (setUpd w u x).loopQ = w.loopQ := rfl
@[simp] theorem setUpd_faultQ : (setUpd w u x).faultQ = w.faultQ := rfl
@[simp] theorem setUpd_dropCe : (setUpd w u x).dropCe = w.dropCe := rfl
@[simp] theorem setUpd_out : (setUpd w u x).out = w.out := rfl
@[simp] theorem setUpd_waiting : (setUpd w u x).waiting = w.waiting := rfl
@[simp] theorem setUpd_hold : (setUpd w u x).hold = w.hold := rfl
@[simp] theorem setUpd_again : (setUpd w u x).again = w.again := rfl
@[simp] theorem setUpd_fresh : (setUpd w u x).fresh = w.fresh := rfl

end

section
variable (w : Work) (p : Nat) (x : Port)

@[simp] theorem setPort_summits : (setPort w p x).summits = w.summits := rfl
@[simp] theorem setPort_crags : (setPort w p x).crags = w.crags := rfl
@[simp] theorem setPort_belays : (setPort w p x).belays = w.belays := rfl
@[simp] theorem setPort_posts : (setPort w p x).posts = w.posts := rfl
@[simp] theorem setPort_sched : (setPort w p x).sched = w.sched := rfl
@[simp] theorem setPort_tens : (setPort w p x).tens = w.tens := rfl
@[simp] theorem setPort_slices : (setPort w p x).slices = w.slices := rfl
@[simp] theorem setPort_chs : (setPort w p x).chs = w.chs := rfl
@[simp] theorem setPort_dram : (setPort w p x).dram = w.dram := rfl
@[simp] theorem setPort_spread : (setPort w p x).spread = w.spread := rfl
@[simp] theorem setPort_errs : (setPort w p x).errs = w.errs := rfl
@[simp] theorem setPort_lost : (setPort w p x).lost = w.lost := rfl
@[simp] theorem setPort_lostRows : (setPort w p x).lostRows = w.lostRows := rfl
@[simp] theorem setPort_retired : (setPort w p x).retired = w.retired := rfl
@[simp] theorem setPort_upds : (setPort w p x).upds = w.upds := rfl
@[simp] theorem setPort_mcast : (setPort w p x).mcast = w.mcast := rfl
@[simp] theorem setPort_od : (setPort w p x).od = w.od := rfl
@[simp] theorem setPort_now : (setPort w p x).now = w.now := rfl
@[simp] theorem setPort_dstate : (setPort w p x).dstate = w.dstate := rfl
@[simp] theorem setPort_stopCause : (setPort w p x).stopCause = w.stopCause := rfl
@[simp] theorem setPort_fuses : (setPort w p x).fuses = w.fuses := rfl
@[simp] theorem setPort_cragMap : (setPort w p x).cragMap = w.cragMap := rfl
@[simp] theorem setPort_withdrawn : (setPort w p x).withdrawn = w.withdrawn := rfl
@[simp] theorem setPort_invals : (setPort w p x).invals = w.invals := rfl
@[simp] theorem setPort_ptlb : (setPort w p x).ptlb = w.ptlb := rfl
@[simp] theorem setPort_remotes : (setPort w p x).remotes = w.remotes := rfl
@[simp] theorem setPort_nextTag : (setPort w p x).nextTag = w.nextTag := rfl
@[simp] theorem setPort_routes : (setPort w p x).routes = w.routes := rfl
@[simp] theorem setPort_bar2Acks : (setPort w p x).bar2Acks = w.bar2Acks := rfl
@[simp] theorem setPort_hostWait : (setPort w p x).hostWait = w.hostWait := rfl
@[simp] theorem setPort_fenceDrop : (setPort w p x).fenceDrop = w.fenceDrop := rfl
@[simp] theorem setPort_fenceSeen : (setPort w p x).fenceSeen = w.fenceSeen := rfl
@[simp] theorem setPort_cplErr : (setPort w p x).cplErr = w.cplErr := rfl
@[simp] theorem setPort_priFail : (setPort w p x).priFail = w.priFail := rfl
@[simp] theorem setPort_epRx : (setPort w p x).epRx = w.epRx := rfl
@[simp] theorem setPort_hostGone : (setPort w p x).hostGone = w.hostGone := rfl
@[simp] theorem setPort_digests : (setPort w p x).digests = w.digests := rfl
@[simp] theorem setPort_suppress : (setPort w p x).suppress = w.suppress := rfl
@[simp] theorem setPort_standby : (setPort w p x).standby = w.standby := rfl
@[simp] theorem setPort_duplex : (setPort w p x).duplex = w.duplex := rfl
@[simp] theorem setPort_share : (setPort w p x).share = w.share := rfl
@[simp] theorem setPort_mirror : (setPort w p x).mirror = w.mirror := rfl
@[simp] theorem setPort_fwding : (setPort w p x).fwding = w.fwding := rfl
@[simp] theorem setPort_fwdData : (setPort w p x).fwdData = w.fwdData := rfl
@[simp] theorem setPort_portsOn : (setPort w p x).portsOn = w.portsOn := rfl
@[simp] theorem setPort_cacheCfg : (setPort w p x).cacheCfg = w.cacheCfg := rfl
@[simp] theorem setPort_loopQ : (setPort w p x).loopQ = w.loopQ := rfl
@[simp] theorem setPort_faultQ : (setPort w p x).faultQ = w.faultQ := rfl
@[simp] theorem setPort_dropCe : (setPort w p x).dropCe = w.dropCe := rfl
@[simp] theorem setPort_out : (setPort w p x).out = w.out := rfl
@[simp] theorem setPort_waiting : (setPort w p x).waiting = w.waiting := rfl
@[simp] theorem setPort_hold : (setPort w p x).hold = w.hold := rfl
@[simp] theorem setPort_again : (setPort w p x).again = w.again := rfl
@[simp] theorem setPort_fresh : (setPort w p x).fresh = w.fresh := rfl

end

section
variable (w : Work) (i k t v : Nat)

@[simp] theorem setOd_summits : (setOd w i k t v).summits = w.summits := rfl
@[simp] theorem setOd_crags : (setOd w i k t v).crags = w.crags := rfl
@[simp] theorem setOd_belays : (setOd w i k t v).belays = w.belays := rfl
@[simp] theorem setOd_posts : (setOd w i k t v).posts = w.posts := rfl
@[simp] theorem setOd_sched : (setOd w i k t v).sched = w.sched := rfl
@[simp] theorem setOd_tens : (setOd w i k t v).tens = w.tens := rfl
@[simp] theorem setOd_slices : (setOd w i k t v).slices = w.slices := rfl
@[simp] theorem setOd_chs : (setOd w i k t v).chs = w.chs := rfl
@[simp] theorem setOd_dram : (setOd w i k t v).dram = w.dram := rfl
@[simp] theorem setOd_spread : (setOd w i k t v).spread = w.spread := rfl
@[simp] theorem setOd_errs : (setOd w i k t v).errs = w.errs := rfl
@[simp] theorem setOd_lost : (setOd w i k t v).lost = w.lost := rfl
@[simp] theorem setOd_lostRows : (setOd w i k t v).lostRows = w.lostRows := rfl
@[simp] theorem setOd_retired : (setOd w i k t v).retired = w.retired := rfl
@[simp] theorem setOd_upds : (setOd w i k t v).upds = w.upds := rfl
@[simp] theorem setOd_mcast : (setOd w i k t v).mcast = w.mcast := rfl
@[simp] theorem setOd_now : (setOd w i k t v).now = w.now := rfl
@[simp] theorem setOd_dstate : (setOd w i k t v).dstate = w.dstate := rfl
@[simp] theorem setOd_stopCause : (setOd w i k t v).stopCause = w.stopCause := rfl
@[simp] theorem setOd_fuses : (setOd w i k t v).fuses = w.fuses := rfl
@[simp] theorem setOd_cragMap : (setOd w i k t v).cragMap = w.cragMap := rfl
@[simp] theorem setOd_withdrawn : (setOd w i k t v).withdrawn = w.withdrawn := rfl
@[simp] theorem setOd_invals : (setOd w i k t v).invals = w.invals := rfl
@[simp] theorem setOd_ptlb : (setOd w i k t v).ptlb = w.ptlb := rfl
@[simp] theorem setOd_remotes : (setOd w i k t v).remotes = w.remotes := rfl
@[simp] theorem setOd_nextTag : (setOd w i k t v).nextTag = w.nextTag := rfl
@[simp] theorem setOd_routes : (setOd w i k t v).routes = w.routes := rfl
@[simp] theorem setOd_bar2Acks : (setOd w i k t v).bar2Acks = w.bar2Acks := rfl
@[simp] theorem setOd_hostWait : (setOd w i k t v).hostWait = w.hostWait := rfl
@[simp] theorem setOd_fenceDrop : (setOd w i k t v).fenceDrop = w.fenceDrop := rfl
@[simp] theorem setOd_fenceSeen : (setOd w i k t v).fenceSeen = w.fenceSeen := rfl
@[simp] theorem setOd_cplErr : (setOd w i k t v).cplErr = w.cplErr := rfl
@[simp] theorem setOd_priFail : (setOd w i k t v).priFail = w.priFail := rfl
@[simp] theorem setOd_epRx : (setOd w i k t v).epRx = w.epRx := rfl
@[simp] theorem setOd_hostGone : (setOd w i k t v).hostGone = w.hostGone := rfl
@[simp] theorem setOd_digests : (setOd w i k t v).digests = w.digests := rfl
@[simp] theorem setOd_suppress : (setOd w i k t v).suppress = w.suppress := rfl
@[simp] theorem setOd_standby : (setOd w i k t v).standby = w.standby := rfl
@[simp] theorem setOd_duplex : (setOd w i k t v).duplex = w.duplex := rfl
@[simp] theorem setOd_share : (setOd w i k t v).share = w.share := rfl
@[simp] theorem setOd_mirror : (setOd w i k t v).mirror = w.mirror := rfl
@[simp] theorem setOd_fwding : (setOd w i k t v).fwding = w.fwding := rfl
@[simp] theorem setOd_fwdData : (setOd w i k t v).fwdData = w.fwdData := rfl
@[simp] theorem setOd_ports : (setOd w i k t v).ports = w.ports := rfl
@[simp] theorem setOd_portsOn : (setOd w i k t v).portsOn = w.portsOn := rfl
@[simp] theorem setOd_cacheCfg : (setOd w i k t v).cacheCfg = w.cacheCfg := rfl
@[simp] theorem setOd_loopQ : (setOd w i k t v).loopQ = w.loopQ := rfl
@[simp] theorem setOd_faultQ : (setOd w i k t v).faultQ = w.faultQ := rfl
@[simp] theorem setOd_dropCe : (setOd w i k t v).dropCe = w.dropCe := rfl
@[simp] theorem setOd_out : (setOd w i k t v).out = w.out := rfl
@[simp] theorem setOd_waiting : (setOd w i k t v).waiting = w.waiting := rfl
@[simp] theorem setOd_hold : (setOd w i k t v).hold = w.hold := rfl
@[simp] theorem setOd_again : (setOd w i k t v).again = w.again := rfl
@[simp] theorem setOd_fresh : (setOd w i k t v).fresh = w.fresh := rfl

end

section
variable (w : Work) (o : Out)

@[simp] theorem emit_summits : (emit w o).summits = w.summits := rfl
@[simp] theorem emit_crags : (emit w o).crags = w.crags := rfl
@[simp] theorem emit_belays : (emit w o).belays = w.belays := rfl
@[simp] theorem emit_posts : (emit w o).posts = w.posts := rfl
@[simp] theorem emit_sched : (emit w o).sched = w.sched := rfl
@[simp] theorem emit_tens : (emit w o).tens = w.tens := rfl
@[simp] theorem emit_slices : (emit w o).slices = w.slices := rfl
@[simp] theorem emit_chs : (emit w o).chs = w.chs := rfl
@[simp] theorem emit_dram : (emit w o).dram = w.dram := rfl
@[simp] theorem emit_spread : (emit w o).spread = w.spread := rfl
@[simp] theorem emit_errs : (emit w o).errs = w.errs := rfl
@[simp] theorem emit_lost : (emit w o).lost = w.lost := rfl
@[simp] theorem emit_lostRows : (emit w o).lostRows = w.lostRows := rfl
@[simp] theorem emit_retired : (emit w o).retired = w.retired := rfl
@[simp] theorem emit_upds : (emit w o).upds = w.upds := rfl
@[simp] theorem emit_mcast : (emit w o).mcast = w.mcast := rfl
@[simp] theorem emit_od : (emit w o).od = w.od := rfl
@[simp] theorem emit_now : (emit w o).now = w.now := rfl
@[simp] theorem emit_dstate : (emit w o).dstate = w.dstate := rfl
@[simp] theorem emit_stopCause : (emit w o).stopCause = w.stopCause := rfl
@[simp] theorem emit_fuses : (emit w o).fuses = w.fuses := rfl
@[simp] theorem emit_cragMap : (emit w o).cragMap = w.cragMap := rfl
@[simp] theorem emit_withdrawn : (emit w o).withdrawn = w.withdrawn := rfl
@[simp] theorem emit_invals : (emit w o).invals = w.invals := rfl
@[simp] theorem emit_ptlb : (emit w o).ptlb = w.ptlb := rfl
@[simp] theorem emit_remotes : (emit w o).remotes = w.remotes := rfl
@[simp] theorem emit_nextTag : (emit w o).nextTag = w.nextTag := rfl
@[simp] theorem emit_routes : (emit w o).routes = w.routes := rfl
@[simp] theorem emit_bar2Acks : (emit w o).bar2Acks = w.bar2Acks := rfl
@[simp] theorem emit_hostWait : (emit w o).hostWait = w.hostWait := rfl
@[simp] theorem emit_fenceDrop : (emit w o).fenceDrop = w.fenceDrop := rfl
@[simp] theorem emit_fenceSeen : (emit w o).fenceSeen = w.fenceSeen := rfl
@[simp] theorem emit_cplErr : (emit w o).cplErr = w.cplErr := rfl
@[simp] theorem emit_priFail : (emit w o).priFail = w.priFail := rfl
@[simp] theorem emit_epRx : (emit w o).epRx = w.epRx := rfl
@[simp] theorem emit_hostGone : (emit w o).hostGone = w.hostGone := rfl
@[simp] theorem emit_digests : (emit w o).digests = w.digests := rfl
@[simp] theorem emit_suppress : (emit w o).suppress = w.suppress := rfl
@[simp] theorem emit_standby : (emit w o).standby = w.standby := rfl
@[simp] theorem emit_duplex : (emit w o).duplex = w.duplex := rfl
@[simp] theorem emit_share : (emit w o).share = w.share := rfl
@[simp] theorem emit_mirror : (emit w o).mirror = w.mirror := rfl
@[simp] theorem emit_fwding : (emit w o).fwding = w.fwding := rfl
@[simp] theorem emit_fwdData : (emit w o).fwdData = w.fwdData := rfl
@[simp] theorem emit_ports : (emit w o).ports = w.ports := rfl
@[simp] theorem emit_portsOn : (emit w o).portsOn = w.portsOn := rfl
@[simp] theorem emit_cacheCfg : (emit w o).cacheCfg = w.cacheCfg := rfl
@[simp] theorem emit_loopQ : (emit w o).loopQ = w.loopQ := rfl
@[simp] theorem emit_faultQ : (emit w o).faultQ = w.faultQ := rfl
@[simp] theorem emit_dropCe : (emit w o).dropCe = w.dropCe := rfl
@[simp] theorem emit_waiting : (emit w o).waiting = w.waiting := rfl
@[simp] theorem emit_hold : (emit w o).hold = w.hold := rfl
@[simp] theorem emit_again : (emit w o).again = w.again := rfl
@[simp] theorem emit_fresh : (emit w o).fresh = w.fresh := rfl

end

theorem getCrag_setCrag (w : Work) (i j : Nat) (x : Crag) : getCrag (setCrag w i x) j = if j = i then x else getCrag w j :=
  Tab.get_set cragD w.crags i j x

@[simp] theorem getCrag_setCrag_same (w : Work) (i : Nat) (x : Crag) : getCrag (setCrag w i x) i = x := by
  simp [getCrag_setCrag]

theorem getSummit_setSummit (w : Work) (i j : Nat) (x : Summit) : getSummit (setSummit w i x) j = if j = i then x else getSummit w j :=
  Tab.get_set summitD w.summits i j x

@[simp] theorem getSummit_setSummit_same (w : Work) (i : Nat) (x : Summit) : getSummit (setSummit w i x) i = x := by
  simp [getSummit_setSummit]

theorem getTen_setTen (w : Work) (i j : Nat) (x : Ten) : getTen (setTen w i x) j = if j = i then x else getTen w j :=
  Tab.get_set tenD w.tens i j x

@[simp] theorem getTen_setTen_same (w : Work) (i : Nat) (x : Ten) : getTen (setTen w i x) i = x := by
  simp [getTen_setTen]

theorem getSlice_setSlice (w : Work) (i j : Nat) (x : Slice) : getSlice (setSlice w i x) j = if j = i then x else getSlice w j :=
  Tab.get_set sliceD w.slices i j x

@[simp] theorem getSlice_setSlice_same (w : Work) (i : Nat) (x : Slice) : getSlice (setSlice w i x) i = x := by
  simp [getSlice_setSlice]

theorem getCh_setCh (w : Work) (i j : Nat) (x : MemCh) : getCh (setCh w i x) j = if j = i then x else getCh w j :=
  Tab.get_set chD w.chs i j x

@[simp] theorem getCh_setCh_same (w : Work) (i : Nat) (x : MemCh) : getCh (setCh w i x) i = x := by
  simp [getCh_setCh]

theorem getBelay_setBelay (w : Work) (i j : Nat) (x : Belay) : getBelay (setBelay w i x) j = if j = i then x else getBelay w j :=
  Tab.get_set belayD w.belays i j x

@[simp] theorem getBelay_setBelay_same (w : Work) (i : Nat) (x : Belay) : getBelay (setBelay w i x) i = x := by
  simp [getBelay_setBelay]

theorem getUpd_setUpd (w : Work) (i j : Nat) (x : UpdUnit) : getUpd (setUpd w i x) j = if j = i then x else getUpd w j :=
  Tab.get_set updD w.upds i j x

@[simp] theorem getUpd_setUpd_same (w : Work) (i : Nat) (x : UpdUnit) : getUpd (setUpd w i x) i = x := by
  simp [getUpd_setUpd]

theorem getPort_setPort (w : Work) (i j : Nat) (x : Port) : getPort (setPort w i x) j = if j = i then x else getPort w j :=
  Tab.get_set portD w.ports i j x

@[simp] theorem getPort_setPort_same (w : Work) (i : Nat) (x : Port) : getPort (setPort w i x) i = x := by
  simp [getPort_setPort]

@[simp] theorem getCrag_setSummit (w : Work) (i j : Nat) (x : Summit) : getCrag (setSummit w i x) j = getCrag w j := rfl
@[simp] theorem getCrag_setTen (w : Work) (i j : Nat) (x : Ten) : getCrag (setTen w i x) j = getCrag w j := rfl
@[simp] theorem getCrag_setSlice (w : Work) (i j : Nat) (x : Slice) : getCrag (setSlice w i x) j = getCrag w j := rfl
@[simp] theorem getCrag_setCh (w : Work) (i j : Nat) (x : MemCh) : getCrag (setCh w i x) j = getCrag w j := rfl
@[simp] theorem getCrag_setBelay (w : Work) (i j : Nat) (x : Belay) : getCrag (setBelay w i x) j = getCrag w j := rfl
@[simp] theorem getCrag_setUpd (w : Work) (i j : Nat) (x : UpdUnit) : getCrag (setUpd w i x) j = getCrag w j := rfl
@[simp] theorem getCrag_setPort (w : Work) (i j : Nat) (x : Port) : getCrag (setPort w i x) j = getCrag w j := rfl
@[simp] theorem getSummit_setCrag (w : Work) (i j : Nat) (x : Crag) : getSummit (setCrag w i x) j = getSummit w j := rfl
@[simp] theorem getSummit_setTen (w : Work) (i j : Nat) (x : Ten) : getSummit (setTen w i x) j = getSummit w j := rfl
@[simp] theorem getSummit_setSlice (w : Work) (i j : Nat) (x : Slice) : getSummit (setSlice w i x) j = getSummit w j := rfl
@[simp] theorem getSummit_setCh (w : Work) (i j : Nat) (x : MemCh) : getSummit (setCh w i x) j = getSummit w j := rfl
@[simp] theorem getSummit_setBelay (w : Work) (i j : Nat) (x : Belay) : getSummit (setBelay w i x) j = getSummit w j := rfl
@[simp] theorem getSummit_setUpd (w : Work) (i j : Nat) (x : UpdUnit) : getSummit (setUpd w i x) j = getSummit w j := rfl
@[simp] theorem getSummit_setPort (w : Work) (i j : Nat) (x : Port) : getSummit (setPort w i x) j = getSummit w j := rfl
@[simp] theorem getTen_setCrag (w : Work) (i j : Nat) (x : Crag) : getTen (setCrag w i x) j = getTen w j := rfl
@[simp] theorem getTen_setSummit (w : Work) (i j : Nat) (x : Summit) : getTen (setSummit w i x) j = getTen w j := rfl
@[simp] theorem getTen_setSlice (w : Work) (i j : Nat) (x : Slice) : getTen (setSlice w i x) j = getTen w j := rfl
@[simp] theorem getTen_setCh (w : Work) (i j : Nat) (x : MemCh) : getTen (setCh w i x) j = getTen w j := rfl
@[simp] theorem getTen_setBelay (w : Work) (i j : Nat) (x : Belay) : getTen (setBelay w i x) j = getTen w j := rfl
@[simp] theorem getTen_setUpd (w : Work) (i j : Nat) (x : UpdUnit) : getTen (setUpd w i x) j = getTen w j := rfl
@[simp] theorem getTen_setPort (w : Work) (i j : Nat) (x : Port) : getTen (setPort w i x) j = getTen w j := rfl
@[simp] theorem getSlice_setCrag (w : Work) (i j : Nat) (x : Crag) : getSlice (setCrag w i x) j = getSlice w j := rfl
@[simp] theorem getSlice_setSummit (w : Work) (i j : Nat) (x : Summit) : getSlice (setSummit w i x) j = getSlice w j := rfl
@[simp] theorem getSlice_setTen (w : Work) (i j : Nat) (x : Ten) : getSlice (setTen w i x) j = getSlice w j := rfl
@[simp] theorem getSlice_setCh (w : Work) (i j : Nat) (x : MemCh) : getSlice (setCh w i x) j = getSlice w j := rfl
@[simp] theorem getSlice_setBelay (w : Work) (i j : Nat) (x : Belay) : getSlice (setBelay w i x) j = getSlice w j := rfl
@[simp] theorem getSlice_setUpd (w : Work) (i j : Nat) (x : UpdUnit) : getSlice (setUpd w i x) j = getSlice w j := rfl
@[simp] theorem getSlice_setPort (w : Work) (i j : Nat) (x : Port) : getSlice (setPort w i x) j = getSlice w j := rfl
@[simp] theorem getCh_setCrag (w : Work) (i j : Nat) (x : Crag) : getCh (setCrag w i x) j = getCh w j := rfl
@[simp] theorem getCh_setSummit (w : Work) (i j : Nat) (x : Summit) : getCh (setSummit w i x) j = getCh w j := rfl
@[simp] theorem getCh_setTen (w : Work) (i j : Nat) (x : Ten) : getCh (setTen w i x) j = getCh w j := rfl
@[simp] theorem getCh_setSlice (w : Work) (i j : Nat) (x : Slice) : getCh (setSlice w i x) j = getCh w j := rfl
@[simp] theorem getCh_setBelay (w : Work) (i j : Nat) (x : Belay) : getCh (setBelay w i x) j = getCh w j := rfl
@[simp] theorem getCh_setUpd (w : Work) (i j : Nat) (x : UpdUnit) : getCh (setUpd w i x) j = getCh w j := rfl
@[simp] theorem getCh_setPort (w : Work) (i j : Nat) (x : Port) : getCh (setPort w i x) j = getCh w j := rfl
@[simp] theorem getBelay_setCrag (w : Work) (i j : Nat) (x : Crag) : getBelay (setCrag w i x) j = getBelay w j := rfl
@[simp] theorem getBelay_setSummit (w : Work) (i j : Nat) (x : Summit) : getBelay (setSummit w i x) j = getBelay w j := rfl
@[simp] theorem getBelay_setTen (w : Work) (i j : Nat) (x : Ten) : getBelay (setTen w i x) j = getBelay w j := rfl
@[simp] theorem getBelay_setSlice (w : Work) (i j : Nat) (x : Slice) : getBelay (setSlice w i x) j = getBelay w j := rfl
@[simp] theorem getBelay_setCh (w : Work) (i j : Nat) (x : MemCh) : getBelay (setCh w i x) j = getBelay w j := rfl
@[simp] theorem getBelay_setUpd (w : Work) (i j : Nat) (x : UpdUnit) : getBelay (setUpd w i x) j = getBelay w j := rfl
@[simp] theorem getBelay_setPort (w : Work) (i j : Nat) (x : Port) : getBelay (setPort w i x) j = getBelay w j := rfl
@[simp] theorem getUpd_setCrag (w : Work) (i j : Nat) (x : Crag) : getUpd (setCrag w i x) j = getUpd w j := rfl
@[simp] theorem getUpd_setSummit (w : Work) (i j : Nat) (x : Summit) : getUpd (setSummit w i x) j = getUpd w j := rfl
@[simp] theorem getUpd_setTen (w : Work) (i j : Nat) (x : Ten) : getUpd (setTen w i x) j = getUpd w j := rfl
@[simp] theorem getUpd_setSlice (w : Work) (i j : Nat) (x : Slice) : getUpd (setSlice w i x) j = getUpd w j := rfl
@[simp] theorem getUpd_setCh (w : Work) (i j : Nat) (x : MemCh) : getUpd (setCh w i x) j = getUpd w j := rfl
@[simp] theorem getUpd_setBelay (w : Work) (i j : Nat) (x : Belay) : getUpd (setBelay w i x) j = getUpd w j := rfl
@[simp] theorem getUpd_setPort (w : Work) (i j : Nat) (x : Port) : getUpd (setPort w i x) j = getUpd w j := rfl
@[simp] theorem getPort_setCrag (w : Work) (i j : Nat) (x : Crag) : getPort (setCrag w i x) j = getPort w j := rfl
@[simp] theorem getPort_setSummit (w : Work) (i j : Nat) (x : Summit) : getPort (setSummit w i x) j = getPort w j := rfl
@[simp] theorem getPort_setTen (w : Work) (i j : Nat) (x : Ten) : getPort (setTen w i x) j = getPort w j := rfl
@[simp] theorem getPort_setSlice (w : Work) (i j : Nat) (x : Slice) : getPort (setSlice w i x) j = getPort w j := rfl
@[simp] theorem getPort_setCh (w : Work) (i j : Nat) (x : MemCh) : getPort (setCh w i x) j = getPort w j := rfl
@[simp] theorem getPort_setBelay (w : Work) (i j : Nat) (x : Belay) : getPort (setBelay w i x) j = getPort w j := rfl
@[simp] theorem getPort_setUpd (w : Work) (i j : Nat) (x : UpdUnit) : getPort (setUpd w i x) j = getPort w j := rfl
@[simp] theorem getCrag_emit (w : Work) (o : Out) (j : Nat) : getCrag (emit w o) j = getCrag w j := rfl
@[simp] theorem getCrag_setOd (w : Work) (i k t v j : Nat) : getCrag (setOd w i k t v) j = getCrag w j := rfl
@[simp] theorem getSummit_emit (w : Work) (o : Out) (j : Nat) : getSummit (emit w o) j = getSummit w j := rfl
@[simp] theorem getSummit_setOd (w : Work) (i k t v j : Nat) : getSummit (setOd w i k t v) j = getSummit w j := rfl
@[simp] theorem getTen_emit (w : Work) (o : Out) (j : Nat) : getTen (emit w o) j = getTen w j := rfl
@[simp] theorem getTen_setOd (w : Work) (i k t v j : Nat) : getTen (setOd w i k t v) j = getTen w j := rfl
@[simp] theorem getSlice_emit (w : Work) (o : Out) (j : Nat) : getSlice (emit w o) j = getSlice w j := rfl
@[simp] theorem getSlice_setOd (w : Work) (i k t v j : Nat) : getSlice (setOd w i k t v) j = getSlice w j := rfl
@[simp] theorem getCh_emit (w : Work) (o : Out) (j : Nat) : getCh (emit w o) j = getCh w j := rfl
@[simp] theorem getCh_setOd (w : Work) (i k t v j : Nat) : getCh (setOd w i k t v) j = getCh w j := rfl
@[simp] theorem getBelay_emit (w : Work) (o : Out) (j : Nat) : getBelay (emit w o) j = getBelay w j := rfl
@[simp] theorem getBelay_setOd (w : Work) (i k t v j : Nat) : getBelay (setOd w i k t v) j = getBelay w j := rfl
@[simp] theorem getUpd_emit (w : Work) (o : Out) (j : Nat) : getUpd (emit w o) j = getUpd w j := rfl
@[simp] theorem getUpd_setOd (w : Work) (i k t v j : Nat) : getUpd (setOd w i k t v) j = getUpd w j := rfl
@[simp] theorem getPort_emit (w : Work) (o : Out) (j : Nat) : getPort (emit w o) j = getPort w j := rfl
@[simp] theorem getPort_setOd (w : Work) (i k t v j : Nat) : getPort (setOd w i k t v) j = getPort w j := rfl

/-! ## Inside a Crag -/

theorem getQueue_setQueue (x : Crag) (i j : Nat) (v : Queue) : getQueue (setQueue x i v) j = if j = i then v else getQueue x j :=
  Tab.get_set queueD x.queues i j v

theorem getChan_setChan (x : Crag) (i j : Nat) (v : Chan) : getChan (setChan x i v) j = if j = i then v else getChan x j :=
  Tab.get_set chanD x.chans i j v

theorem getSlot_setSlot (x : Crag) (i j : Nat) (v : Option Task) : getSlot (setSlot x i v) j = if j = i then v else getSlot x j :=
  Tab.get_set slotD x.slots i j v

@[simp] theorem setQueue_ops (x : Crag) (i : Nat) (v : Queue) : (setQueue x i v).ops = x.ops := rfl
@[simp] theorem setQueue_fe (x : Crag) (i : Nat) (v : Queue) : (setQueue x i v).fe = x.fe := rfl
@[simp] theorem setQueue_ledge (x : Crag) (i : Nat) (v : Queue) : (setQueue x i v).ledge = x.ledge := rfl
@[simp] theorem setChan_ops (x : Crag) (i : Nat) (v : Chan) : (setChan x i v).ops = x.ops := rfl
@[simp] theorem setChan_fe (x : Crag) (i : Nat) (v : Chan) : (setChan x i v).fe = x.fe := rfl
@[simp] theorem setChan_queues (x : Crag) (i : Nat) (v : Chan) : (setChan x i v).queues = x.queues := rfl
@[simp] theorem setSlot_ops (x : Crag) (i : Nat) (v : Option Task) : (setSlot x i v).ops = x.ops := rfl
@[simp] theorem setSlot_fe (x : Crag) (i : Nat) (v : Option Task) : (setSlot x i v).fe = x.fe := rfl
@[simp] theorem setOp_fe (x : Crag) (o : Op) : (setOp x o).fe = x.fe := rfl
@[simp] theorem setOp_queues (x : Crag) (o : Op) : (setOp x o).queues = x.queues := rfl
@[simp] theorem setOp_ledge (x : Crag) (o : Op) : (setOp x o).ledge = x.ledge := rfl

/-- The op with a number, after it has been replaced. -/
theorem findOp_setOp (x : Crag) (o p : Op) (h : findOp x o.n = some p) : findOp (setOp x o) o.n = some o := by
  unfold findOp at h
  simp only [findOp, setOp]
  generalize x.ops = l at h
  induction l with
  | nil => simp at h
  | cons q l ih =>
    by_cases hq : q.n = o.n
    · simp [hq]
    · simp only [List.find?_cons, hq, decide_false] at h
      simp [hq, ih h]

theorem findOp_n (x : Crag) (n : Nat) (o : Op) (h : findOp x n = some o) : o.n = n := by
  unfold findOp at h
  have := List.find?_some h
  simpa using this

/-! ## Objects -/

theorem od_setOd (w : Work) (i k t j l u v : Nat) :
    od (setOd w i k t v) j l u = if okey j l u = okey i k t then v else od w j l u :=
  Tab.get_set odDefault w.od (okey i k t) (okey j l u) v

@[simp] theorem od_setOd_same (w : Work) (i k t v : Nat) : od (setOd w i k t v) i k t = v := by simp [od_setOd]

end Sys2Proof.Machine
end

