-- ==== Sys2Proof/Laws/Ops.lean ====
section
/-! SUPPORT. What the shared operations can do, said once: the outcomes of a command, holding and raising a fault, the bytes of a
channel, a written object, a register write, and the two kinds of step. -/

namespace Sys2Proof.Machine

open Host

/-! ## Outcomes of a command -/

theorem onWork_next (s t : State) (f : Work → Work) : onWork s f = .next t ↔ t = { s with work := f s.work } := by
  simp only [onWork, Outcome.next.injEq]
  exact eq_comm

theorem onMem_next (cmd : Instr) (s t : State) (f : Work → Work) :
    onMem cmd s f = .next t ↔ t = { s with work := settle cmd s.work (f s.work) } := by
  simp only [onMem, Outcome.next.injEq]
  exact eq_comm

theorem onCrag_next (cmd : Instr) (c : Nat) (s t : State) (f : Work → Work) :
    onCrag cmd c s f = .next t ↔ c < 256 ∧ t = { s with work := settle cmd s.work (f s.work) } := by
  unfold onCrag
  split
  · rename_i h
    simp [h, onMem_next]
  · simp [*]

theorem onSummit_next (cmd : Instr) (n : Nat) (s t : State) (f : Work → Work) :
    onSummit cmd n s f = .next t ↔ n < 16 ∧ t = { s with work := settle cmd s.work (f s.work) } := by
  unfold onSummit
  split
  · rename_i h
    simp [h, onMem_next]
  · simp [*]

theorem onUnit_next (what : String) (count n : Nat) (s t : State) (f : State → State) :
    onUnit what count n s f = .next t ↔ n < count ∧ t = f s := by
  unfold onUnit
  split
  · rename_i h
    simp only [h, true_and, Outcome.next.injEq]
    exact eq_comm
  · simp [*]

/-! ## Commands that wait -/

/-- A command that belongs to no ordered source is behind none. -/
theorem behind_free (w : Work) (cmd : Instr) (h : sourceOf cmd = none) : behind w cmd = false := by simp [behind, h]

/-- While nothing waits, no command is behind another. -/
theorem behind_empty (w : Work) (cmd : Instr) (h : w.waiting = []) : behind w cmd = false := by simp [behind, h]

/-- What a command must wait for: the earlier ones of its source, or the hold it met. -/
theorem waitsFor_eq (cmd : Instr) (old new : Work) (b : behind old cmd = false) : waitsFor cmd old new = new.hold := by
  simp [waitsFor, b]

/-- A command that is behind none and met no hold happens. -/
theorem settle_go (cmd : Instr) (old new : Work) (b : behind old cmd = false) (h : new.hold = none) : settle cmd old new = new := by
  simp [settle, waitsFor_eq cmd old new b, h]

/-- A command that met a hold does not happen: it joins those that wait. -/
theorem settle_wait (cmd : Instr) (old new : Work) (b : behind old cmd = false) {r : Hold} (h : new.hold = some r) :
    settle cmd old new = { old with hold := none, waiting := old.waiting ++ [{ why := r, cmd := cmd }] } := by
  simp [settle, waitsFor_eq cmd old new b, h]

/-- A command whose source has an earlier one waiting joins it. -/
theorem settle_behind (cmd : Instr) (old new : Work) (b : behind old cmd = true) :
    settle cmd old new = { old with hold := none, waiting := old.waiting ++ [{ why := .order, cmd := cmd }] } := by
  simp [settle, waitsFor, b]

/-- A settled command leaves no hold noted. -/
@[simp] theorem settle_hold (cmd : Instr) (old new : Work) : (settle cmd old new).hold = none := by
  unfold settle waitsFor
  cases b : behind old cmd <;> cases h : new.hold <;> simp [h]

@[simp] theorem settleS_hold (cmd : Instr) (old new : State) : (settleS cmd old new).work.hold = none := by
  unfold settleS waitsFor
  cases b : behind old.work cmd <;> cases h : new.work.hold with
  | none => simp [h]
  | some r => cases r <;> simp

theorem settleS_go (cmd : Instr) (old new : State) (b : behind old.work cmd = false) (h : new.work.hold = none) :
    settleS cmd old new = new := by
  simp [settleS, waitsFor_eq cmd old.work new.work b, h]

/-- The settled state is the new one, or the old one but for the command that now waits and the routes and requests it has dropped. -/
theorem settleS_cases (cmd : Instr) (old new : State) : settleS cmd old new = new ∨
    ∃ r routes remotes, settleS cmd old new = { old with work := { old.work with
      hold := none, waiting := old.work.waiting ++ [{ why := r, cmd := cmd }], routes := routes, remotes := remotes } } := by
  cases b : behind old.work cmd with
  | true =>
    refine .inr ⟨.order, old.work.routes, old.work.remotes, ?_⟩
    simp [settleS, settle, waitsFor, b]
  | false =>
    cases h : new.work.hold with
    | none => exact .inl (settleS_go cmd old new b h)
    | some r =>
      have b' : behind { old.work with routes := [], remotes := new.work.remotes } cmd = false := b
      by_cases e : r = .routes
      · refine .inr ⟨.routes, [], new.work.remotes, ?_⟩
        subst e
        simp [settleS, waitsFor_eq cmd old.work new.work b, h, settle_wait cmd _ _ b' h]
      · refine .inr ⟨r, old.work.routes, old.work.remotes, ?_⟩
        unfold settleS
        rw [waitsFor_eq cmd old.work new.work b, h, settle_wait cmd _ _ b h]
        cases r <;> first | rfl | exact absurd rfl e

/-! ## Steps -/

/-- Everything a step can be: idling when nothing is pending, else the first command on the state that holds the rest. -/
theorem step_cases (s : State) :
    (s.pending = [] ∧ step s = .next (idle s)) ∨ (∃ c rest, s.pending = c :: rest ∧ step s = exec c { s with pending := rest }) := by
  unfold step
  cases h : s.pending with
  | nil => exact .inl ⟨rfl, rfl⟩
  | cons c rest => exact .inr ⟨c, rest, rfl, rfl⟩

/-- While nothing waits, idling is one tick. -/
theorem idle_tick (s : State) (h : s.it.sysclk = true) (g : (tick s).work.waiting = []) : idle s = tick s := by
  unfold idle redoAll
  rw [if_pos h, g]
  generalize tick s = t at g
  rcases t with ⟨_, w, _⟩
  cases w
  simp_all

/-- Without SYSCLK idling changes nothing. -/
theorem idle_stopped (s : State) (h : s.it.sysclk = false) : idle s = s := by simp [idle, h]

/-! ## Faults -/

/-- Holding a message changes only the messages held and the count of those discarded. -/
theorem holdFault_eq (w : Work) (m : FaultMsg) :
    holdFault w m = { w with faultQ := (holdFault w m).faultQ, dropCe := (holdFault w m).dropCe } := by
  unfold holdFault
  split <;> rfl

/-- The messages held after one more: as before, when it is a fifth corrected one of its source; else with it at the end. -/
theorem holdFault_faultQ (w : Work) (m : FaultMsg) :
    (holdFault w m).faultQ = w.faultQ ∨ (holdFault w m).faultQ = w.faultQ ++ [m] := by
  unfold holdFault
  split
  · exact .inl rfl
  · exact .inr rfl

/-- A message that is not corrected is always held. -/
theorem holdFault_keeps (w : Work) (m : FaultMsg) (h : m.cls ≠ 0) : holdFault w m = { w with faultQ := w.faultQ ++ [m] } := by
  unfold holdFault
  rw [if_neg (fun g => h g.1)]

section
variable (w : Work) (src : BitVec 16) (kind ten addr : Nat)

theorem raise_eq : raise w src kind ten addr =
    { w with faultQ := (raise w src kind ten addr).faultQ, dropCe := (raise w src kind ten addr).dropCe } := holdFault_eq w _

@[simp] theorem raise_summits : (raise w src kind ten addr).summits = w.summits := by rw [raise_eq]
@[simp] theorem raise_crags : (raise w src kind ten addr).crags = w.crags := by rw [raise_eq]
@[simp] theorem raise_belays : (raise w src kind ten addr).belays = w.belays := by rw [raise_eq]
@[simp] theorem raise_posts : (raise w src kind ten addr).posts = w.posts := by rw [raise_eq]
@[simp] theorem raise_sched : (raise w src kind ten addr).sched = w.sched := by rw [raise_eq]
@[simp] theorem raise_tens : (raise w src kind ten addr).tens = w.tens := by rw [raise_eq]
@[simp] theorem raise_slices : (raise w src kind ten addr).slices = w.slices := by rw [raise_eq]
@[simp] theorem raise_chs : (raise w src kind ten addr).chs = w.chs := by rw [raise_eq]
@[simp] theorem raise_dram : (raise w src kind ten addr).dram = w.dram := by rw [raise_eq]
@[simp] theorem raise_spread : (raise w src kind ten addr).spread = w.spread := by rw [raise_eq]
@[simp] theorem raise_lost : (raise w src kind ten addr).lost = w.lost := by rw [raise_eq]
@[simp] theorem raise_retired : (raise w src kind ten addr).retired = w.retired := by rw [raise_eq]
@[simp] theorem raise_upds : (raise w src kind ten addr).upds = w.upds := by rw [raise_eq]
@[simp] theorem raise_mcast : (raise w src kind ten addr).mcast = w.mcast := by rw [raise_eq]
@[simp] theorem raise_od : (raise w src kind ten addr).od = w.od := by rw [raise_eq]
@[simp] theorem raise_now : (raise w src kind ten addr).now = w.now := by rw [raise_eq]
@[simp] theorem raise_dstate : (raise w src kind ten addr).dstate = w.dstate := by rw [raise_eq]
@[simp] theorem raise_stopCause : (raise w src kind ten addr).stopCause = w.stopCause := by rw [raise_eq]
@[simp] theorem raise_fuses : (raise w src kind ten addr).fuses = w.fuses := by rw [raise_eq]
@[simp] theorem raise_cragMap : (raise w src kind ten addr).cragMap = w.cragMap := by rw [raise_eq]
@[simp] theorem raise_withdrawn : (raise w src kind ten addr).withdrawn = w.withdrawn := by rw [raise_eq]
@[simp] theorem raise_ptlb : (raise w src kind ten addr).ptlb = w.ptlb := by rw [raise_eq]
@[simp] theorem raise_remotes : (raise w src kind ten addr).remotes = w.remotes := by rw [raise_eq]
@[simp] theorem raise_nextTag : (raise w src kind ten addr).nextTag = w.nextTag := by rw [raise_eq]
@[simp] theorem raise_routes : (raise w src kind ten addr).routes = w.routes := by rw [raise_eq]
@[simp] theorem raise_bar2Acks : (raise w src kind ten addr).bar2Acks = w.bar2Acks := by rw [raise_eq]
@[simp] theorem raise_hostWait : (raise w src kind ten addr).hostWait = w.hostWait := by rw [raise_eq]
@[simp] theorem raise_fenceDrop : (raise w src kind ten addr).fenceDrop = w.fenceDrop := by rw [raise_eq]
@[simp] theorem raise_fenceSeen : (raise w src kind ten addr).fenceSeen = w.fenceSeen := by rw [raise_eq]
@[simp] theorem raise_cplErr : (raise w src kind ten addr).cplErr = w.cplErr := by rw [raise_eq]
@[simp] theorem raise_priFail : (raise w src kind ten addr).priFail = w.priFail := by rw [raise_eq]
@[simp] theorem raise_epRx : (raise w src kind ten addr).epRx = w.epRx := by rw [raise_eq]
@[simp] theorem raise_hostGone : (raise w src kind ten addr).hostGone = w.hostGone := by rw [raise_eq]
@[simp] theorem raise_digests : (raise w src kind ten addr).digests = w.digests := by rw [raise_eq]
@[simp] theorem raise_suppress : (raise w src kind ten addr).suppress = w.suppress := by rw [raise_eq]
@[simp] theorem raise_standby : (raise w src kind ten addr).standby = w.standby := by rw [raise_eq]
@[simp] theorem raise_duplex : (raise w src kind ten addr).duplex = w.duplex := by rw [raise_eq]
@[simp] theorem raise_share : (raise w src kind ten addr).share = w.share := by rw [raise_eq]
@[simp] theorem raise_mirror : (raise w src kind ten addr).mirror = w.mirror := by rw [raise_eq]
@[simp] theorem raise_fwding : (raise w src kind ten addr).fwding = w.fwding := by rw [raise_eq]
@[simp] theorem raise_fwdData : (raise w src kind ten addr).fwdData = w.fwdData := by rw [raise_eq]
@[simp] theorem raise_ports : (raise w src kind ten addr).ports = w.ports := by rw [raise_eq]
@[simp] theorem raise_loopQ : (raise w src kind ten addr).loopQ = w.loopQ := by rw [raise_eq]
@[simp] theorem raise_out : (raise w src kind ten addr).out = w.out := by rw [raise_eq]
@[simp] theorem raise_errs : (raise w src kind ten addr).errs = w.errs := by rw [raise_eq]
@[simp] theorem raise_lostRows : (raise w src kind ten addr).lostRows = w.lostRows := by rw [raise_eq]
@[simp] theorem raise_invals : (raise w src kind ten addr).invals = w.invals := by rw [raise_eq]
@[simp] theorem raise_waiting : (raise w src kind ten addr).waiting = w.waiting := by rw [raise_eq]
@[simp] theorem raise_again : (raise w src kind ten addr).again = w.again := by rw [raise_eq]
@[simp] theorem raise_hold : (raise w src kind ten addr).hold = w.hold := by rw [raise_eq]
@[simp] theorem raise_fresh : (raise w src kind ten addr).fresh = w.fresh := by rw [raise_eq]
end

/-! ## The bytes of a channel -/

/-- The canonical form rests on the bytes and on what they read as unlisted, and on nothing else. -/
theorem Work.memOk_congr {w v : Work} (hd : v.dram = w.dram) (hl : v.lost = w.lost) (hr : v.lostRows = w.lostRows)
    (h : w.memOk = true) : v.memOk = true := by unfold Work.memOk; rw [hd, hl, hr]; exact h

/-- One byte read after a byte is written. -/
theorem dramGet_set (w : Work) (c x d y : Nat) (b : Byte) :
    dramGet (dramSet w c x b) d y = if dramKey d y = dramKey c x then b else dramGet w d y := by
  unfold dramGet dramSet
  exact Tab.get_set (dramD w.lost w.lostRows) w.dram (dramKey c x) (dramKey d y) b

/-- Bytes written to a channel change the bytes of the channels only. -/
theorem putRaw_eq (w : Work) (c : Nat) : ∀ (bs : List Byte) (x : Nat), putRaw w c x bs = { w with dram := (putRaw w c x bs).dram } := by
  intro bs
  induction bs generalizing w with
  | nil => intro x; rfl
  | cons b bs ih =>
    intro x
    rw [putRaw, ih]
    rfl

/-- A block written changes those bytes and the errors that stand in it. -/
theorem putBlock_eq (w : Work) (c x : Nat) (bs : List Byte) :
    putBlock w c x bs = { w with dram := (putRaw w c x bs).dram, errs := (putBlock w c x bs).errs } := by
  unfold putBlock setErrs
  rw [putRaw_eq]

/-- One byte written keeps the canonical form. -/
theorem dramSet_wf (w : Work) (c x : Nat) (b : Byte) (h : w.memOk = true) : (dramSet w c x b).memOk = true := Tab.wf_set _ _ _ _ h

/-- Bytes written keep the canonical form. -/
theorem putRaw_wf (w : Work) (c : Nat) : ∀ (bs : List Byte) (x : Nat), w.memOk = true → (putRaw w c x bs).memOk = true := by
  intro bs
  induction bs generalizing w with
  | nil => intro x h; exact h
  | cons b bs ih => intro x h; exact ih _ _ (dramSet_wf w c x b h)

theorem putBlock_wf (w : Work) (c x : Nat) (bs : List Byte) (h : w.memOk = true) : (putBlock w c x bs).memOk = true :=
  putRaw_wf w c bs x h

/-- A block written through its controller changes the queue of its channel beside those. -/
theorem chPut_eq (w : Work) (c x : Nat) (bs : List Byte) (poison : Bool) : chPut w c x bs poison =
    { w with dram := (chPut w c x bs poison).dram, errs := (chPut w c x bs poison).errs, chs := (setCh w c (wqPush (getCh w c) x)).chs } := by
  unfold chPut
  dsimp only
  rw [putBlock_eq]
  rfl

/-- A block written through its controller keeps the canonical form. -/
theorem chPut_wf (w : Work) (c x : Nat) (bs : List Byte) (poison : Bool) (h : w.memOk = true) : (chPut w c x bs poison).memOk = true :=
  putBlock_wf _ c _ _ h

/-- Memory after reset lists nothing, which is canonical. -/
theorem reset_dram : State.reset.work.dram = [] := rfl

theorem reset_memory_wf : State.reset.work.memOk = true := by
  unfold Work.memOk
  rw [reset_dram]
  exact Tab.wf_nil _

/-- Addresses that change space leave the canonical form: their bytes, and those of the spare rows for them, are no longer listed. -/
theorem lost_wf (lost : List (Nat × Nat)) (old rows : List Nat) (dram : Mem) (lo hi : Nat) (h : Tab.wf (dramD lost old) dram = true) :
    Tab.wf (dramD (lost ++ [(lo, hi)]) (old ++ rows)) (Tab.drop (fun k => (decide (lo ≤ k % 2 ^ 35) && decide (k % 2 ^ 35 < hi)) ||
      (decide (k % 2 ^ 35 < 0x2000000) && decide (k / 2 ^ 35 * 4096 + k % 2 ^ 35 / 8192 ∈ rows))) dram) = true := by
  refine Tab.wf_drop_change (dramD lost old) _ _ (fun k hk => ?_) dram h
  rw [Bool.or_eq_false_iff] at hk
  obtain ⟨h1, h2⟩ := hk
  have e : (decide (k % 2 ^ 35 < 0x2000000) && decide (k / 2 ^ 35 * 4096 + k % 2 ^ 35 / 8192 ∈ old ++ rows)) =
      (decide (k % 2 ^ 35 < 0x2000000) && decide (k / 2 ^ 35 * 4096 + k % 2 ^ 35 / 8192 ∈ old)) := by
    cases g : decide (k % 2 ^ 35 < 0x2000000) with
    | false => simp
    | true =>
      rw [g, Bool.true_and, decide_eq_false_iff_not] at h2
      simp only [Bool.true_and, List.mem_append, h2, or_false]
  unfold dramD
  rw [e, List.any_append]
  simp only [List.any_cons, List.any_nil, h1, Bool.or_false]

/-- A move of the spread fraction keeps the canonical form. -/
theorem spreadForce_wf (w : Work) (h : w.memOk = true) : (spreadForce w).memOk = true := by
  unfold spreadForce
  dsimp only
  split
  · exact h
  · exact lost_wf _ _ _ _ _ _ h

/-! ## Objects -/

/-- Everything a written object can do: nothing, its act, or the stored value. -/
theorem writeObj_cases (s : State) (a : OdAgent) (idx sub off : Nat) (bs : List Byte) :
    (writeObj s a idx sub off bs).1 = s ∨
    (∃ o sel, writeObj s a idx sub off bs = writeActs s a o sel off bs) ∨
    (∃ sel v, writeObj s a idx sub off bs = ({ s with work := setOd s.work idx sub sel v }, stOk)) := by
  unfold writeObj
  split
  · exact .inl rfl
  · rename_i o _
    dsimp only
    by_cases h1 : readOnly o (objSel s a.bank o.sel) = true
    · rw [if_pos h1]; exact .inl rfl
    rw [if_neg h1]
    by_cases h2 : odAbsent s o sub = true
    · rw [if_pos h2]; exact .inl rfl
    rw [if_neg h2]
    by_cases h3 : (!stateAllows s a o (objSel s a.bank o.sel)) = true
    · rw [if_pos h3]; exact .inl rfl
    rw [if_neg h3]
    by_cases h4 : (!lengthOk o off bs.length) = true
    · rw [if_pos h4]; exact .inl rfl
    rw [if_neg h4]
    by_cases h5 : (!rangeOk s o a.bank (leNat bs)) = true
    · rw [if_pos h5]; exact .inl rfl
    rw [if_neg h5]
    by_cases h6 : actsOnWrite idx = true
    · rw [if_pos h6]; exact .inr (.inl ⟨_, _, rfl⟩)
    rw [if_neg h6]
    exact .inr (.inr ⟨_, _, rfl⟩)

/-! ## Registers -/

theorem bankOf_bankNo (b : Bank) (h : b ≠ .hostEp) : bankOf (bankNo b) = b := by
  cases b <;> first | rfl | exact absurd rfl h | (simp only [bankNo, Nat.add_comm 3]; rfl)

/-- A write of a bank that is open is behind no other command. -/
theorem behind_open (s : State) (b : Bank) (off width : Nat) (v : W64) (h : s.bankOpen b) :
    behind s.work (.registerWrite b off width v) = false := by
  cases b with
  | host => exact (h.2 rfl).2.2.2
  | hostEp => exact absurd rfl h.1
  | _ => exact behind_free _ _ rfl

/-- A bank that the device answers itself has its write applied. -/
theorem regWrite_open (s : State) (b : Bank) (off width v : Nat) (h : s.bankOpen b) : regWrite s (bankNo b) off width v =
    settleS (.registerWrite b off width (BitVec.ofNat 64 v)) s (regPut s (bankNo b) off width v) := by
  have hb : bankNo b = 0 → b = .host := by
    cases b with
    | host => exact fun _ => rfl
    | hostEp => exact absurd rfl h.1
    | basecamp => exact fun h => nomatch h
    | od => exact fun h => nomatch h
    | doorbell t => intro h; simp only [bankNo] at h; omega
  unfold regWrite
  by_cases h0 : bankNo b = 0
  · obtain ⟨h1, h2, h3⟩ := h.2 (hb h0)
    simp [h1, h2, h3, hb h0]
    rfl
  · simp [h0, bankOf_bankNo b h.1]

/-- With no hold met, the write happens. -/
theorem regWrite_go (s : State) (b : Bank) (off width v : Nat) (h : s.bankOpen b)
    (g : (regPut s (bankNo b) off width v).work.hold = none) : regWrite s (bankNo b) off width v = regPut s (bankNo b) off width v := by
  rw [regWrite_open s b off width v h, settleS_go _ _ _ (behind_open s b off width _ h) g]

end Sys2Proof.Machine
end

