-- ==== Sys2Proof/Laws/Units.lean ====
section
/-! SUPPORT. What the operations of a Crag, a party and a port can change: the Ledge, the queues, a party stop, and what leaves the
device. -/

namespace Sys2Proof.Machine

open Host

/-! ## The Ledge -/

/-- Bytes written to the Ledge leave every other byte. -/
theorem ledgeBytes_outside (x : Nat) : ∀ (bs : List Byte) (m : Mem) (a : Nat), (∀ i, i < bs.length → ledgeWrap (a + i) ≠ x) →
    Mem.get (ledgeBytes m a bs) x = Mem.get m x
  | [], _, _, _ => rfl
  | b :: bs, m, a, h => by
    have h0 : ledgeWrap a ≠ x := h 0 (by simp)
    rw [ledgeBytes, ledgeBytes_outside x bs _ (a + 1) (fun i hi => by
      have := h (i + 1) (by simpa using hi)
      rwa [show a + 1 + i = a + (i + 1) by omega]), Mem.get_set, if_neg (fun e => h0 e.symm)]

/-- The Ledge keeps its canonical form. -/
theorem ledgeBytes_wf : ∀ (bs : List Byte) (m : Mem) (a : Nat), Mem.wf m = true → Mem.wf (ledgeBytes m a bs) = true
  | [], _, _, h => h
  | _ :: bs, _, a, h => ledgeBytes_wf bs _ (a + 1) (Mem.wf_set _ _ _ h)

/-- A write to the Ledge changes its bytes, poison and zero map only. -/
theorem ledgePut_eq (x : Crag) (a : Nat) (bs : List Byte) (poison : Bool) :
    ledgePut x a bs poison = { x with ledge := ledgeBytes x.ledge a bs, zmap := (ledgePut x a bs poison).zmap,
                                      lpois := (ledgePut x a bs poison).lpois } := rfl

/-- A macro-op reads the Ledge, or stops with LEDGE_BOUNDS at a byte outside its read regions (R57). -/
theorem opRead_cases (x : Crag) (p : Packet) (a n : Nat) :
    opRead x p a n = .ok (ledgeGet x a n, ledgePois x a n) ∨ ∃ b, opRead x p a n = .error (boundsErr p b false x) := by
  unfold opRead
  split
  · exact .inr ⟨_, rfl⟩
  · exact .inl rfl

/-- A macro-op writes the Ledge, or stops with LEDGE_BOUNDS at a byte outside its write regions, with the bytes before it written (R57). -/
theorem opWrite_cases (x : Crag) (p : Packet) (a : Nat) (bs : List Byte) (poison : Bool) :
    opWrite x p a bs poison = .ok (ledgePut x a bs poison) ∨
    ∃ b, opWrite x p a bs poison = .error (boundsErr p b true (ledgePut x a (bs.take (b - a)) poison)) := by
  unfold opWrite
  split
  · exact .inr ⟨_, rfl⟩
  · exact .inl rfl

/-! ## Queues -/

/-- A push appends to its queue and leaves the others. -/
theorem getQueue_qPush (x : Crag) (q j : Nat) (e : Entry) : getQueue (qPush x q e) j =
    if j = q then { getQueue x q with ents := (getQueue x q).ents ++ [e], tail := ((getQueue x q).tail + 1) % 32 } else getQueue x j :=
  getQueue_setQueue (qMoved x) q j _

/-- A pop takes the head of its queue and leaves the others. -/
theorem getQueue_qPop (x : Crag) (q j : Nat) : getQueue (qPop x q) j =
    if j = q then { getQueue x q with ents := (getQueue x q).ents.drop 1, head := ((getQueue x q).head + 1) % 32 } else getQueue x j :=
  getQueue_setQueue (qMoved x) q j _

/-- A push or pop changes the queues and the deadlock count only. -/
theorem qPush_eq (x : Crag) (q : Nat) (e : Entry) :
    qPush x q e = { x with queues := (qPush x q e).queues, region := { x.region with blocked := 0 } } := rfl

theorem qPop_eq (x : Crag) (q : Nat) : qPop x q = { x with queues := (qPop x q).queues, region := { x.region with blocked := 0 } } := rfl

/-! ## A party stop -/

theorem freezeCrag_eq (w : Work) (c : Nat) : freezeCrag w c = { w with crags := (freezeCrag w c).crags } := by
  unfold freezeCrag
  dsimp only
  split <;> rfl

/-- A stop freezes the Crag. -/
theorem freezeCrag_frozen (w : Work) (c : Nat) : (getCrag (freezeCrag w c) c).fe.frozen = true := by
  unfold freezeCrag
  dsimp only
  split
  · assumption
  · simp [getCrag, setCrag]

/-- A stop leaves every other Crag. -/
theorem freezeCrag_ne (w : Work) (c j : Nat) (h : j ≠ c) : getCrag (freezeCrag w c) j = getCrag w j := by
  unfold freezeCrag
  dsimp only
  split
  · rfl
  · exact Tab.get_set_ne cragD _ _ h

theorem foldl_freeze_eq : ∀ (l : List Nat) (w : Work), l.foldl freezeCrag w = { w with crags := (l.foldl freezeCrag w).crags }
  | [], _ => rfl
  | c :: l, w => by
    rw [List.foldl_cons, foldl_freeze_eq l]
    rw [freezeCrag_eq w c]

theorem settleSlice_eq (w : Work) (t : Nat) : settleSlice w t = { w with tens := (settleSlice w t).tens } := by
  unfold settleSlice
  dsimp only
  split <;> rfl

/-- A party stop changes Summits, Crags and the deferred end of a slice, and nothing else of the data plane. -/
theorem stopParty_eq (w : Work) (lead : Nat) : stopParty w lead =
    { w with summits := (stopParty w lead).summits, crags := (stopParty w lead).crags, tens := (stopParty w lead).tens } := by
  unfold stopParty
  dsimp only
  rw [settleSlice_eq, foldl_freeze_eq]
  rfl

/-- A fault that stops a party changes those and the messages held. -/
theorem cragFault_eq (w : Work) (c kind addr : Nat) : cragFault w c kind addr =
    { w with summits := (cragFault w c kind addr).summits, crags := (cragFault w c kind addr).crags
             tens := (cragFault w c kind addr).tens, faultQ := (cragFault w c kind addr).faultQ
             dropCe := (cragFault w c kind addr).dropCe } := by
  unfold cragFault
  rw [stopParty_eq, raise_eq]

/-- An op's error changes those too: what the op wrote before it stands (R57). -/
theorem opFault_eq (w : Work) (c : Nat) (e : OpErr) : opFault w c e =
    { w with summits := (opFault w c e).summits, crags := (opFault w c e).crags, tens := (opFault w c e).tens
             faultQ := (opFault w c e).faultQ, dropCe := (opFault w c e).dropCe } := by
  unfold opFault
  rw [cragFault_eq]
  unfold leaveOf
  cases e.left <;> rfl

/-- A fault after which the party goes on changes the messages held only. -/
theorem cragNote_eq (w : Work) (c kind addr : Nat) : cragNote w c kind addr =
    { w with faultQ := (cragNote w c kind addr).faultQ, dropCe := (cragNote w c kind addr).dropCe } := raise_eq w _ _ _ _

/-! ## What leaves the device -/

/-- An MSI-X message is suppressed on a standby, lost without a host, or sent. -/
theorem msix_cases (w : Work) (v : Nat) : msix w v = suppress1 w ∨ msix w v = w ∨ msix w v = emit w (.msix v) := by
  unfold msix
  split
  · exact .inl rfl
  · unfold msixOut
    split
    · exact .inr (.inl rfl)
    · exact .inr (.inr rfl)

/-- The frame as it stands on the wire: with the port's next LSEQ, and its CRC-32C (R456, R458). -/
def stamped (w : Work) (p : Nat) (f : Frame) : Frame :=
  let g := { f with lseq := (getPort w p).txSeq }
  { g with crc := frameCrc g }

theorem stampSent_other (w : Work) (p : Nat) (f : Frame) (h : f.typ ≠ 7) : stampSent w p f = (w, f) := if_pos h

theorem stampSent_eq (w : Work) (p : Nat) (f : Frame) :
    (stampSent w p f).1 = { w with ports := (stampSent w p f).1.ports, fresh := (stampSent w p f).1.fresh } := by
  unfold stampSent
  dsimp only
  split
  · rfl
  · split <;> rfl

/-- A frame other than TIME goes out as it is. -/
theorem transmit_eq (w : Work) (p : Nat) (f : Frame) (h : f.typ ≠ 7) : transmit w p f =
    { w with ports := (transmit w p f).ports, out := w.out ++ [.frame p (stamped w p f)] } := by
  unfold transmit
  rw [stampSent_other w p f h]
  rfl

/-- Whatever frame goes out, the ports and what is put out change, and the free values when it takes its time of sending (R460). -/
theorem transmit_any (w : Work) (p : Nat) (f : Frame) : transmit w p f =
    { w with ports := (transmit w p f).ports, out := (transmit w p f).out, fresh := (transmit w p f).fresh } := by
  unfold transmit
  dsimp only
  rw [stampSent_eq]
  rfl

/-- What sending a frame can do: it goes out, or joins the port's waiting frames, or is lost on a port that is down. -/
theorem sendOn_cases (w : Work) (p : Nat) (f : Frame) :
    (clearToSend w p f = true ∧ sendOn w p f = (transmit w p f, true)) ∨
    (clearToSend w p f = false ∧ portLive w p = true ∧
      sendOn w p f = (setPort w p { getPort w p with waitQ := (getPort w p).waitQ ++ [f] }, true)) ∨
    (portLive w p = false ∧ sendOn w p f = (w, false)) := by
  have up : clearToSend w p f = true → portLive w p = true := by
    intro h
    simp only [clearToSend, Bool.and_eq_true] at h
    simp [portLive, h.1.1]
  unfold sendOn
  cases c : clearToSend w p f with
  | true => exact .inl ⟨rfl, rfl⟩
  | false =>
    cases l : portLive w p with
    | true => exact .inr (.inl ⟨rfl, rfl, rfl⟩)
    | false => exact .inr (.inr ⟨rfl, rfl⟩)

/-- Sending a frame other than TIME changes the ports and what is put out only. -/
theorem sendOn_eq (w : Work) (p : Nat) (f : Frame) (t : f.typ ≠ 7) :
    (sendOn w p f).1 = { w with ports := (sendOn w p f).1.ports, out := (sendOn w p f).1.out } := by
  rcases sendOn_cases w p f with h | h | h
  · rw [h.2, transmit_eq w p f t]
  · rw [h.2.2]; rfl
  · rw [h.2]

/-- Sending any frame changes those, and the free values. -/
theorem sendOn_any (w : Work) (p : Nat) (f : Frame) :
    (sendOn w p f).1 = { w with ports := (sendOn w p f).1.ports, out := (sendOn w p f).1.out, fresh := (sendOn w p f).1.fresh } := by
  rcases sendOn_cases w p f with h | h | h
  · rw [h.2]; exact transmit_any w p f
  · rw [h.2.2]; rfl
  · rw [h.2]

/-- Whatever sends one frame after another changes the ports, what is put out and the free values only. -/
theorem foldl_sendOn_eq (p : Nat) : ∀ (l : List Frame) (w : Work), l.foldl (fun w f => (sendOn w p f).1) w =
    { w with ports := (l.foldl (fun w f => (sendOn w p f).1) w).ports, out := (l.foldl (fun w f => (sendOn w p f).1) w).out
             fresh := (l.foldl (fun w f => (sendOn w p f).1) w).fresh }
  | [], _ => rfl
  | f :: l, w => by
    rw [List.foldl_cons, foldl_sendOn_eq p l]
    rw [sendOn_any w p f]

theorem flush_eq (w : Work) (p : Nat) :
    flush w p = { w with ports := (flush w p).ports, out := (flush w p).out, fresh := (flush w p).fresh } := by
  unfold flush
  dsimp only
  split
  · rfl
  · rw [foldl_sendOn_eq]
    rfl

theorem linkSend_eq (w : Work) (p : Nat) : linkSend w p = { w with ports := (linkSend w p).ports, out := (linkSend w p).out } := by
  unfold linkSend
  dsimp only
  split
  · rw [transmit_eq _ _ _ (by simp [linkFrame, blankFrame])]
    rfl
  · rfl

theorem returnCredit_eq (w : Work) (p : Nat) (f : Frame) :
    returnCredit w p f = { w with ports := (returnCredit w p f).ports, out := (returnCredit w p f).out } := by
  unfold returnCredit
  dsimp only
  rw [linkSend_eq]
  rfl

theorem askReplay_eq (w : Work) (p : Nat) (bad : Bool) :
    askReplay w p bad = { w with ports := (askReplay w p bad).ports, out := (askReplay w p bad).out } := by
  unfold askReplay
  dsimp only
  split
  · rfl
  · rw [linkSend_eq]
    rfl

/-- A frame that crosses a link changes that link, and what its answer puts out, only. -/
theorem linkTake_eq (w : Work) (p : Nat) (f : Frame) :
    (linkTake w p f).1 = { w with ports := (linkTake w p f).1.ports, out := (linkTake w p f).1.out } := by
  unfold linkTake
  dsimp only
  split
  · dsimp only; rw [askReplay_eq]; rfl
  · split
    · rfl
    · split
      · dsimp only; rw [askReplay_eq]; rfl
      · rfl

/-- A good frame that is the next in order crosses its link (R456). -/
theorem linkTake_good (w : Work) (p : Nat) (f : Frame) (hc : f.crc = frameCrc f) (hl : f.lseq = (getPort w p).rxSeq) :
    linkTake w p f = (w.took p f, true) ∧ w.took p f = setPort w p { getPort w p with
      rx := bump (getPort w p).rx (wireBytes f), rxSeq := (getPort w p).rxSeq + 1, ackDue := true, asking := false
      linkDue := (getPort w p).linkDue || decide (f.typ ≠ 8) } := by
  simp [Work.took, linkTake, ← hc, ← hl]

/-- A frame whose CRC-32C is wrong counts and asks for a replay, and is not taken (R456). -/
theorem linkTake_bad (w : Work) (p : Nat) (f : Frame) (hc : f.crc ≠ frameCrc f) :
    linkTake w p f = (askReplay (setPort w p { getPort w p with
      rx := bump (getPort w p).rx (wireBytes f), crcErr := bump (getPort w p).crcErr 1 }) p true, false) := by
  simp [linkTake, hc]

/-- What a frame command that the link hears does: its effect, and the frame's credit returns (R457). -/
theorem onLink_go (cmd : Instr) (p : Nat) (f : Frame) (s : State) (g : State → State) (h : s.hears cmd p f)
    (hg : (g { s with work := s.work.took p f }).work.hold = none) :
    onLink cmd p f s g = { g { s with work := s.work.took p f } with
      work := returnCredit (g { s with work := s.work.took p f }).work p f } := by
  obtain ⟨ha, _, hb, hu, hc, hl⟩ := h
  have ht := (linkTake_good s.work p f hc hl).1
  have hn : (returnCredit (g { s with work := s.work.took p f }).work p f).hold = none := by rw [returnCredit_eq]; exact hg
  have b : behind (linkSend (s.work.took p f) p) cmd = false := by
    rw [linkSend_eq, Work.took, linkTake_eq]
    exact hb
  simp only [onLink, ha, hu, ht]
  exact settleS_go cmd _ _ b hn

/-- A frame to the twin changes the ports' counts and what is put out only. -/
theorem sendRope_eq (w : Work) (f : Frame) (h : f.typ ≠ 7) :
    sendRope w f = { w with ports := (sendRope w f).ports, out := (sendRope w f).out } := by
  unfold sendRope
  split
  · rfl
  · exact sendOn_eq w 8 f h

theorem sendCtrl_eq (w : Work) (kind ten addr : Nat) (payload : List Byte) : sendCtrl w kind ten addr payload =
    { w with ports := (sendCtrl w kind ten addr payload).ports, out := (sendCtrl w kind ten addr payload).out } := sendRope_eq w _ (by simp [ropeFrame, blankFrame])

theorem addDigest_eq (w : Work) (c : Nat) (e : W64) (pos kind poison : Nat) (data : List Byte) :
    addDigest w c e pos kind poison data = { w with digests := (addDigest w c e pos kind poison data).digests } := by
  unfold addDigest
  split <;> rfl

/-- Without Duplex no digest is kept. -/
theorem addDigest_single (w : Work) (c : Nat) (e : W64) (pos kind poison : Nat) (data : List Byte) (h : w.duplex = false) :
    addDigest w c e pos kind poison data = w := by simp [addDigest, h]

/-- A host write of a device that is neither silenced nor of a Duplex pair, with a host: it is put out. -/
theorem hostWrite_sent (w : Work) (c : Nat) (e : W64) (pasid iova : Nat) (bs : List Byte) (poison noSnoop : Bool)
    (h : silenced w = false) (d : w.duplex = false) (g : w.hostGone = false) :
    hostWrite w c e pasid iova bs poison noSnoop = emit w (.hostWrite pasid iova bs poison noSnoop) := by
  simp [hostWrite, addDigest_single _ _ _ _ _ _ _ d, h, isStandby, d, g]

/-- Meters change the tenancies only. -/
theorem meterFrame_eq (w : Work) (rope : Bool) (t bytes : Nat) : meterFrame w rope t bytes = { w with tens := (meterFrame w rope t bytes).tens } := rfl
theorem meterDram_eq (w : Work) (r : Req) : meterDram w r = { w with tens := (meterDram w r).tens } := rfl
theorem meterRidge_eq (w : Work) (t bytes : Nat) : meterRidge w t bytes = { w with tens := (meterRidge w t bytes).tens } := rfl

end Sys2Proof.Machine
end

