-- ==== Sys2Proof/Tests/Slice0.lean ====
section
/-! SUPPORT. Tests. test_* check one command on a small state against the spec's words; witness_<Obligation>* show, for the obligation of
that name, a state and operands that meet its hypotheses clause by clause, and most run the command on it. -/

namespace Sys2Proof.Tests

-- One theorem at a time: the kernel evaluates most of them, and many at once need more thread stacks than a check may have.
set_option Elab.async false

open Sys2Proof Sys2Proof.Machine Host

/-! ## Helpers -/

/-- A next state that passes a check. -/
def after (r : Res) (p : State → Bool) : Bool :=
  match r with
  | .next t => p t
  | _ => false

/-- A machine in Run with a host, its channels online, memory whose bytes read as zero, and Basecamp's bank selecting Crag 5. -/
def base : State := { State.reset with
  work := { Work.reset with
    lost := [], dstate := .run, hostGone := false
    chs := (List.range 24).map fun c => (c, { MemCh.reset with state := 2, trained := true }) }
  host := { HostPort.reset with pcieUp := true, pcieSt := 2, sel := [(32, 5)] }
  pwr := { Power.reset with railsUp := true, perst := false } }

/-- base with another data plane. -/
def onW (f : Work → Work) : State := { base with work := f base.work }

/-- base with Crag 5 changed. -/
def onC (f : Crag → Crag) : State := onW fun w => setCrag w 5 (f Crag.reset)

/-- base with Summit 0 running and changed. -/
def onS (f : Summit → Summit) : State := onW fun w => setSummit w 0 (f { Summit.reset 0 with state := .running })

/-- A packet from its fields: lowest bit and value. -/
def pk (fs : List (Nat × Nat)) : Packet := BitVec.ofNat 256 (fs.foldl (fun a f => a + f.2 * 2 ^ f.1) 0)

/-- Op n of a packet, newly dispatched. -/
def op (n : Nat) (p : Packet) : Op := newOp n p [] [] 0 true false

/-- A cached translation of tenancy 0's page 512 to itself. -/
def tlb512 : Tlb := ⟨0, 512, 0x40000000, true⟩

/-- base with one op dispatched in Crag 5. -/
def onOp (o : Op) : State := onC fun x => { x with ops := [o] }

/-- base with one packet in the FIFO of Crag 5. -/
def onPkt (p : Packet) (f : Crag → Crag := id) : State := onC fun x =>
  f { x with fe := { x.fe with fifo := [{ pkt := p, selected := true, mcSet := [], tag := (0, 0) }] } }

/-- Crag 5, Summit 0 of a state. -/
def cr (s : State) : Crag := getCrag s.work 5
def su (s : State) : Summit := getSummit s.work 0

/-- Whether the packet of onPkt is legal. -/
def isLegal (s : State) (p : Packet) (sel : Bool := true) : Bool :=
  legal s.work 5 (cr s) { pkt := p, selected := sel, mcSet := [], tag := (0, 0) } (shifted (cr s) p)

/-- Stage and count of op 0 of Crag 5. -/
def stageOf (s : State) : Option Stage := (findOp (cr s) 0).map (·.stage)
def countOf (s : State) : Option Nat := (findOp (cr s) 0).map (·.count)

/-- Kinds of the faults held. -/
def kinds (s : State) : List Nat := s.work.faultQ.map fun m => m.kind.toNat

/-- Bytes of a number given by its fields: lowest bit and value. -/
def img (n : Nat) (fs : List (Nat × Nat)) : List Byte := natLe n (fs.foldl (fun a f => a + f.2 * 2 ^ f.1) 0)

/-- Crag 5 with one op, bytes at the start of its Ledge regions 0 and 1, and a translation of page 512. -/
def opOver (o : Op) (a b : List Byte) : State := onC fun x =>
  { x with ops := [o], ledge := Mem.write (Mem.write [] 0 a) 4096 b, tlb := [tlb512] }

/-- A read of the Ledge that gives bytes without poison. -/
def gives (r : Except OpErr (List Byte × Bool)) (bs : List Byte) : Bool :=
  match r with
  | .ok v => decide (v = (bs, false))
  | .error _ => false

/-- base with port p changed. -/
def onPort (p : Nat) (f : Port → Port) : State := onW fun w => setPort w p (f (getPort w p))

/-- base with another IT unit and source. -/
def onIt (src : Nat) (f : ItUnit → ItUnit) : State :=
  { base with it := f ItUnit.reset, work := setOd base.work 0x8001 0 0 src }

/-- A port that is up and may send 4 KiB on each virtual channel. -/
def upPort (x : Port) : Port := { x with state := 2, credit := List.replicate 5 4096 }

/-- A frame with its CRC-32C. -/
def good (f : Frame) : Frame := { f with crc := frameCrc f }

/-- A frame that ends here. -/
def frame (typ addr : Nat) : Frame :=
  good { blankFrame base.work typ (devId base.work) with len := 1, addr := BitVec.ofNat 48 addr, payload := [1, 2] }

theorem frame_plain (p typ addr : Nat) (h : typ ≠ 0) (g : typ < 9) : plainFrame p (frame typ addr) :=
  ⟨h, (by show typ < _; split <;> omega), (by decide : 1 < 3)⟩

/-- A frame of the Rope of a type and kind. -/
def ropeFrame (typ kind : Nat) (f : Frame) : Frame := { f with crc := frameCrc (ropeIn typ kind f) }

/-- Whether a frame is what the link of a port takes next. -/
def isHeard (s : State) (cmd : Instr) (p : Nat) (f : Frame) : Bool :=
  !s.work.again && s.work.hold.isNone && !behind s.work cmd && portUp s.work p && f.crc == frameCrc f && f.lseq == (getPort s.work p).rxSeq

theorem isHeard_hears (s : State) (cmd : Instr) (p : Nat) (f : Frame) (h : isHeard s cmd p f = true) : s.hears cmd p f := by
  simpa [isHeard, State.hears, and_assoc] using h

/-- The check value of CRC-32C, that of the digits 1 to 9. -/
theorem test_crc32c : crc32c ((List.range 9).map fun k => BitVec.ofNat 8 (0x31 + k)) = 0xE3069283 := by decide +kernel

/-- base in Duplex with the Rope up. -/
def duo (f : Twin → Twin) (g : Work → Work := id) : State :=
  let w := (onPort 8 upPort).work
  { base with work := g { w with duplex := true }, twin := f base.twin }

/-- Basecamp's bank and its objects are open to it. -/
theorem basecamp_bankOpen (s : State) : s.bankOpen .basecamp := ⟨nofun, nofun⟩

theorem basecamp_objectsOpen (s : State) (h : isStandby s.work = false) (g : s.work.fwding = false) (k : s.it.sysclk = true)
    (r : s.work.hold = none) : s.objectsOpen .basecamp := ⟨k, fun _ => rfl, (fun _ h => nomatch h), h, g, r⟩

/-- The host's bank is open to it, but for its TLPs with EP set. -/
theorem host_bankOpen (s : State) (h : s.host.d3hot = false) (g : isStandby s.work = false) (k : s.work.fwding = false)
    (r : behind s.work (.registerWrite .host 0 0 0) = false) : s.bankOpen .host := ⟨nofun, fun _ => ⟨h, g, k, r⟩⟩

/-! ## Well-formed commands -/

theorem test_wf_refuses :
    [Instr.issueStore 16 0 0 false, .ebreak 16 false, .packetArrival 256, .dispatch 256, .mma 256 0, .gatherCsr 256 0 [],
     .acknowledgement (.op 256 0), .acknowledgement (.summit 16), .mcastFetchStart 64, .updateUnitApply 8, .migrateClaimAck 8 0,
     .belayPostApply 65536, .selectWrite .host 7 0, .cacheFillDone 4 0 0, .waySweepDone 0 16, .bankSpare 0 32 0, .bankSpare 0 0 20,
     .dramRead 24 0 [], .tgDone 24 [], .ridgeLaneFail ⟨1, 0, 0, 0⟩, .ridgeLaneFail ⟨0, 1, 36, 0⟩, .ridgeLaneFail ⟨0, 0, 0, 2⟩,
     .eventFire 4096, .dbRing 16 0, .travLaneFail 8 0, .travLaneFail 0 5, .travLinkUp 8, .ropeLaneFail 18, .railWarnEnd 24 0,
     .supplyFail 24 0].all (fun c => !c.wf) = true := by decide

theorem test_wf_accepts :
    [Instr.issueStore 15 0 0 false, .packetArrival 255, .acknowledgement .host, .mcastFetchStart 63, .updateUnitApply 7,
     .belayPostApply 65535, .selectWrite .host 6 0, .selectWrite .od 0x8022 0, .cmoDone 3, .waySweepDone 3 15, .bankSpare 3 31 19,
     .retrainDone 23 true, .ridgeLaneFail ⟨1, 6, 55, 1⟩, .ridgeLaneFail ⟨0, 0, 69, 0⟩, .eventFire 4095, .dbRing 15 0,
     .travLaneFail 7 4, .ropeLaneFail 17, .supplyFail 23 0, .por].all Instr.wf = true := by decide

theorem test_missing_units_are_refused_by_name :
    exec (.dispatch 256) base = .refused (.noSuchUnit "Crag" 256) ∧ exec (.ebreak 16 true) base = .refused (.noSuchUnit "Summit" 16) :=
  ⟨rfl, rfl⟩

/-! ## The queue -/

theorem witness_StepRunsTheFrontCommand : { base with pending := [.por, .rstN] }.pending = .por :: [.rstN] := rfl

theorem witness_IdleStepCountsOneTick :
    base.pending = [] ∧ base.it.sysclk = true ∧ base.work.waiting = [] ∧ base.work.sched.ready = [] ∧ base.work.sched.delay = [] ∧
    (∀ e ∈ base.work.crags, e.2.ops = []) ∧ (∀ d, d < 4 → (getSlice base.work d).cmoPend = []) ∧ (onIt 1 fun x => { x with sysclk := false }).it.sysclk = false ∧ after (step base) (fun t => t.work.now = 1) = true := by decide +kernel

theorem witness_CommandsCompleteUnlessTheyNameMissingUnits :
    (Instr.dispatch 255).wf = true ∧ (Instr.dispatch 256).wf = false := by decide

/-! ## The Summit and its packets -/

theorem witness_SummitRegisterStores :
    (onS id).work.hold = none ∧ sumReady (onS id).work 0 = true ∧
    after (exec (.issueStore 0 2 7 true) (onS id)) (fun t => Tab.get (bvD 64) (su t).issue 2 = 7 && (su t).pc = 2) = true ∧
    after (exec (.tmaskStore 0 7 3 9 false) (onS id)) (fun t => Tab.get (bvD 64) (su t).tmask 31 = 9 && (su t).pc = 4) = true ∧
    after (exec (.tmaskStore 0 0 3 9 false) (onS id)) (fun t => (su t).tmask = []) = true := by decide +kernel

/-- A Summit whose credit for Crag 5 is spent. -/
def noCredit : State := onS fun m => { m with credits := [(5, 0)] }

theorem witness_IssueSendsOnePacketPerCrag_sent :
    sumReady (onS id).work 0 = true ∧ haveCredit (onS id).work 0 = true ∧
    after (exec (.issueStore 0 3 7 false) (onS id)) (fun t =>
      (cr t).fe.flight.map (·.pkt) = [BitVec.ofNat 256 (7 * 2 ^ 192)] && Tab.get creditD (su t).credits 5 = 63) = true := by
  decide +kernel

theorem witness_IssueSendsOnePacketPerCrag_stalled :
    sumReady noCredit.work 0 = true ∧ haveCredit noCredit.work 0 = false ∧
    after (exec (.issueStore 0 3 7 false) noCredit) (fun t =>
      (cr t).fe.flight = [] && (su t).pc = 0 && (su t).stall.isSome) = true := by decide +kernel

theorem witness_SumLoadReadsTheResult_readable :
    sumReady (onS fun m => { m with sums := [(15, 99)] }).work 0 = true ∧
    sumReadable (su (onS fun m => { m with sums := [(15, 99)] })) 15 = true ∧
    Tab.get falseD (su (onS fun m => { m with sums := [(15, 99)] })).sumPois 15 = false ∧
    after (exec (.sumLoad 0 15 31 false) (onS fun m => { m with sums := [(15, 99)] })) (fun t => getX (su t) 31 = 99) = true := by
  decide +kernel

theorem witness_SumLoadReadsTheResult_stalled :
    sumReady (onS fun m => { m with sumSent := [(3, 1)] }).work 0 = true ∧
    sumReadable (su (onS fun m => { m with sumSent := [(3, 1)] })) 3 = false ∧
    after (exec (.sumLoad 0 3 1 false) (onS fun m => { m with sumSent := [(3, 1)] })) (fun t =>
      (su t).stall = some (.sum 3 1 4) && (su t).pc = 0) = true := by decide +kernel

/-- IMEM of add x3, x1, x2: opcode 0x33, rd 3 at bit 7, rs1 1 at bit 15, rs2 2 at bit 20. -/
def addProgram : State := onS fun m => { m with
  imem := Mem.write [] 0 [0xB3, 0x81, 0x20, 0x00], xs := [(1, 5), (2, 0xFFFFFFFFFFFFFFFF)] }

theorem witness_SummitFenceEbreakAdd :
    sumReady addProgram.work 0 = true ∧ (su addProgram).pc.toNat + 4 ≤ 0x10000 ∧
    leNat (Mem.read (su addProgram).imem (su addProgram).pc.toNat 4) = 0x33 + 3 * 2 ^ 7 + 1 * 2 ^ 15 + 2 * 2 ^ 20 ∧
    after (exec (.summitInstruction 0) addProgram) (fun t => getX (su t) 3 = 4 && (su t).pc = 4) = true ∧
    after (exec (.summitFence 0) addProgram) (fun t => (su t).pc = 4) = true ∧
    after (exec (.ebreak 0 false) addProgram) (fun t => (su t).state = .halted && (su t).brk && (su t).pc = 4) = true := by
  decide +kernel

/-- A Summit with a translation of 0x40000000, where 0xFE stands. -/
def windowed : State := { onS fun m => { m with tlb := [tlb512] } with
  work := writePa (onS fun m => { m with tlb := [tlb512] }).work (req 0 0) 0x40000000 [0xFE] false }

theorem witness_WindowAccessCompletes_load :
    sumReady windowed.work 0 = true ∧ (0x40000000 : W64).toNat + 8 ≤ 2 ^ 48 ∧
    (vRead windowed.work (.summit 0) (req 0 (tenOfSpur windowed.work 0)) 0x40000000 8).2 = ([0xFE, 0, 0, 0, 0, 0, 0, 0], false, none) ∧
    (vRead windowed.work (.summit 0) (req 0 (tenOfSpur windowed.work 0)) 0x40000000 8).1.hold = none ∧
    after (exec (.windowLoadStore 0 0x40000000 (.load 1 true 4) false) windowed) (fun t => getX (su t) 4 = 0xFFFFFFFFFFFFFFFE) = true := by
  decide +kernel

theorem witness_WindowAccessCompletes_store :
    sumReady windowed.work 0 = true ∧
    (vWrite windowed.work (.summit 0) (req 0 (tenOfSpur windowed.work 0)) 0x40000008 (natLe 8 5) false).2 = none ∧
    (vWrite windowed.work (.summit 0) (req 0 (tenOfSpur windowed.work 0)) 0x40000008 (natLe 8 5) false).1.hold = none ∧
    after (exec (.windowLoadStore 0 0x40000008 (.store 8 5) false) windowed) (fun t => (su t).wacks = 1 && (su t).pc = 4) = true := by
  decide +kernel

theorem witness_PacketsArriveAndCreditsReturn :
    after (exec (.packetArrival 5) (onC fun x => { x with fe := { x.fe with flight := [⟨1, true, false, [], (0, 1)⟩] } })) (fun t =>
      (cr t).fe.flight = [] && (cr t).fe.fifo = [⟨1, true, [], (0, 1)⟩]) = true ∧
    (su (onC fun x => { x with credits := 1 })).stall = none ∧
    after (exec (.creditReturn 5) (onW fun w => setSummit (setCrag w 5 { Crag.reset with credits := 1 }) 0
      { Summit.reset 0 with credits := [(5, 63)] })) (fun t => (cr t).credits = 0 && (su t).credits = []) = true := by decide +kernel

/-- Fifteen contributions to SUM2 of a signed sum have come, Crag 5's is on its way. -/
def contrib5 : Contrib := { tag := (0, 8), pass := [], sreg := 2, kind := 0, signed := true, value := some 0xFFFFFFFF, poison := false }

def lastOfSum (others : List Nat) : State := onW fun w => setSummit (setCrag w 5 { Crag.reset with contrib := [contrib5] }) 0
  { Summit.reset 0 with sumSent := [(2, 8)], sumDone := [(2, 7)]
                        reds := [{ num := 8, pass := [], sreg := 2, kind := 0, signed := true
                                   got := others.map fun c => (c, some 10, false) }] }

/-- The Crags of Summit 0's party but Crag 5. -/
def others5 : List Nat := (List.range 16).filter (· ≠ 5)

theorem witness_LastContributionGivesTheSum :
    let s := lastOfSum others5
    let e := lastOfSum others5.tail
    (cr s).contrib = contrib5 :: [] ∧ leaderOfCrag s.work 5 = 0 ∧ (su s).stall = none ∧ Tab.get zeroD (su s).sumDone 2 ≤ contrib5.tag.2 ∧
    ((partyCrags s.work 0).all fun d => (redWith (su s) contrib5 5).got.any fun g => decide (g.1 = d)) = true ∧
    ((partyCrags e.work 0).all fun d => (redWith (su e) contrib5 5).got.any fun g => decide (g.1 = d)) = false ∧
    Tab.get zeroD (su s).sumSent 2 = (redWith (su s) contrib5 5).num ∧
    after (exec (.summaryContributionArrival 5) s) (fun t => Tab.get (bvD 64) (su t).sums 2 = 149 && sumReadable (su t) 2) = true ∧
    after (exec (.summaryContributionArrival 5) e) (fun t => Tab.get (bvD 64) (su t).sums 2 = 0 && !sumReadable (su t) 2) = true := by
  decide +kernel

/-! ## The front end -/

theorem witness_DispatchOfNopAndIllegalPackets_nop :
    feReady (onPkt 0).work 5 = true ∧ isLegal (onPkt 0) 0 = true ∧
    after (exec (.dispatch 5) (onPkt 0)) (fun t => (cr t).fe.fifo = [] && (cr t).credits = 1) = true := by decide +kernel

theorem witness_DispatchOfNopAndIllegalPackets_illegal :
    feReady (onPkt 4).work 5 = true ∧ isLegal (onPkt 4) 4 = false ∧
    after (exec (.dispatch 5) (onPkt 4)) (fun t => kinds t = [3] && (cr t).fe.frozen) = true := by decide +kernel

/-- TALLY.SET of counter 7 to 3; TALLY.LOOP of counter 7 over one packet (Table 2.7). -/
def tallySet : Packet := pk [(0, 1), (128, 7), (160, 3)]
def tallyLoop : Packet := pk [(0, 2), (128, 7), (132, 1)]

theorem witness_TallySetWritesOneCount_set :
    feReady (onPkt tallySet).work 5 = true ∧ isLegal (onPkt tallySet) tallySet = true ∧ opcOf tallySet = 1 ∧
    after (exec (.dispatch 5) (onPkt tallySet)) (fun t => (cr t).fe.counts = [(7, 3)]) = true := by decide +kernel

theorem witness_TallySetWritesOneCount_loop :
    let s := onPkt tallyLoop fun x => { x with fe := { x.fe with counts := [(7, 3)] } }
    feReady s.work 5 = true ∧ isLegal s tallyLoop = true ∧ opcOf tallyLoop = 2 ∧ Tab.get (bvD 32) (cr s).fe.counts 7 ≠ 0 ∧
    after (exec (.dispatch 5) s) (fun t => (cr t).fe.loops = [⟨7, 3, 1, 1, 0⟩]) = true := by decide +kernel

/-- STREAM.RD into queue 3 through channel 7. -/
def rdQ3 : Packet := pk [(0, 0x10), (46, 0x103), (56, 9), (72, 1), (128, 7)]

theorem witness_DispatchPassesThePacketOn_passed :
    feReady (onPkt rdQ3).work 5 = true ∧ isLegal (onPkt rdQ3) rdQ3 = true ∧ isFrontEnd (opcOf rdQ3) = false ∧
    bufferFull (cr (onPkt rdQ3)) ⟨rdQ3, true, [], (0, 0)⟩ = false ∧ isChainOp rdQ3 = false ∧ opcOf rdQ3 ≠ 8 ∧ predTrue (cr (onPkt rdQ3)) rdQ3 = true ∧
    after (exec (.dispatch 5) (onPkt rdQ3)) (fun t => ((cr t).ops.map (·.pkt)) = [rdQ3] && (cr t).fe.seqDisp = 9) = true := by
  decide +kernel

theorem witness_DispatchPassesThePacketOn_full :
    let s := onPkt rdQ3 fun x => { x with ops := (List.range 4).map fun k => op k rdQ3 }
    feReady s.work 5 = true ∧ isLegal s rdQ3 = true ∧ bufferFull (cr s) ⟨rdQ3, true, [], (0, 0)⟩ = true ∧
    after (exec (.dispatch 5) s) (fun t => (cr t).ops.length = 4 && (cr t).fe.fifo.length = 1) = true := by decide +kernel

theorem witness_DispatchPassesThePacketOn_unselected :
    let s := onC fun x => { x with fe := { x.fe with fifo := [⟨rdQ3, false, [], (0, 0)⟩] } }
    feReady s.work 5 = true ∧ isLegal s rdQ3 false = true ∧ bufferFull (cr s) ⟨rdQ3, false, [], (0, 0)⟩ = false ∧
    after (exec (.dispatch 5) s) (fun t => (cr t).ops = [] && (cr t).fe.fifo = []) = true := by decide +kernel

/-! ## Macro-ops in general -/

theorem witness_OpsCompleteAndSummariesContribute_complete :
    let s := onOp { op 0 rdQ3 with stage := .done, count := 6 }
    findOp (cr s) 0 = some { op 0 rdQ3 with stage := .done, count := 6 } ∧ (cr s).fe.frozen = false ∧
    after (exec (.macroOpComplete 5 0) s) (fun t => (cr t).ops = [] && (cr t).cntAu = 6 && (cr t).cntEu = 0) = true := by decide +kernel

/-- SUMMARY of the AU's count to SUM4 (SSRC 3). -/
def sumCount : Packet := pk [(0, 8), (132, 4), (136, 3)]

theorem witness_OpsCompleteAndSummariesContribute_summary :
    let s := onC fun x => { x with ops := [op 0 sumCount], cntAu := 12 }
    opcOf sumCount = 8 ∧ startable s.work 5 (op 0 sumCount) = true ∧ unitDrained (cr s) (op 0 sumCount) = true ∧
    after (exec (.summary 5 0) s) (fun t => (cr t).contrib.map (fun k => (k.sreg, k.value, k.poison)) = [(4, some 12, false)] && stageOf t = some .done) = true := by decide +kernel

/-- An op that waits for room in queue 3. -/
def pushing : Op := { op 0 (pk [(0, 0x70), (46, 0x103)]) with stage := .draining, outQ := [(3, ⟨[1], true, false⟩)] }

theorem witness_WaitsEndWithEntriesAndAcknowledgements_queue :
    (cr (onOp pushing)).ops.filter (fun p => usesQueue p 3) = [pushing] ∧ isStream (opcOf pushing.pkt) = false ∧
    qFull (cr (onOp pushing)) 3 = false ∧
    after (exec (.queueWaitEnd 5 3) (onOp pushing)) (fun t =>
      (getQueue (cr t) 3).ents = [⟨[1], true, false⟩] && stageOf t = some .done) = true := by decide +kernel

theorem witness_WaitsEndWithEntriesAndAcknowledgements_acks :
    let s := onW fun w => { setCrag (setSummit w 0 { Summit.reset 0 with wacks := 2 }) 5
      { Crag.reset with ops := [{ op 0 (pk [(0, 0x11)]) with stage := .acking, acks := 1 }] } with bar2Acks := 1 }
    (su s).wacks = 1 + 1 ∧ (su s).stall = none ∧ s.work.bar2Acks = 0 + 1 ∧ s.work.hostWait = [] ∧
    dAsp (getChan (cr s) (strmCh (pk [(0, 0x11)]))).desc ≠ 2 ∧
    after (exec (.acknowledgement (.summit 0)) s) (fun t => (su t).wacks = 1) = true ∧
    after (exec (.acknowledgement .host) s) (fun t => t.work.bar2Acks = 0) = true ∧
    after (exec (.acknowledgement (.op 5 0)) s) (fun t => stageOf t = some .done) = true := by decide +kernel

/-- A write stream to the host with three writes sent, all acknowledged by its zero-length read once it has done everything else. -/
theorem witness_WaitsEndWithEntriesAndAcknowledgements_host :
    let s := fun st => onC fun x => { x with ops := [{ op 0 (pk [(0, 0x11)]) with stage := st, acks := 3 }], chans := [(0, { Chan.reset with desc := 2 ^ 48, op := 0 })] }
    dAsp (getChan (cr (s .acking)) (strmCh (pk [(0, 0x11)]))).desc = 1 ∧ (s .acking).work.invals = [] ∧
    after (exec (.acknowledgement (.op 5 0)) (s .acking)) (fun t => stageOf t = some .done && ((findOp (cr t) 0).map (·.acks)) = some 0) = true ∧
    after (exec (.acknowledgement (.op 5 0)) (s .gathering)) (fun t => ((findOp (cr t) 0).map (·.acks)) = some 3) = true := by decide +kernel

/-! ## Streams -/

/-- A descriptor (Table 3.4) of one 128 B element at 0x40000000: ESZ 7, one dimension, COUNT 1, STRIDE 128; ASP as given. -/
def desc1 (asp : Nat) : List Byte := img 64 [(0, 0x40000000), (48, asp), (50, 7), (53, 1), (64, 1), (192, 128)]

/-- A stream op of an opcode through channel 7, reading region 0; queue 3, Ledge region 1 or multicast group 2 beside it. -/
def strm (opc : Nat) : Packet :=
  pk ([(0, opc), (56, 9), (72, 2), (128, 7)] ++
    (if opc = 0x10 then [(46, 0x103)] else if opc = 0x11 then [(16, 0x201)] else [(46, 0x202), (88, 2), (96, 1), (146, 2), (152, 5)]))

def strmOp (opc asp : Nat) : State := opOver { op 0 (strm opc) with mcSet := [5] } (desc1 asp) []

/-- Reserved ASP 3 (R89). -/
theorem witness_BadDescriptorsReadAndWriteNothing :
    startable (strmOp 0x10 3).work 5 (op 0 (strm 0x10)) = true ∧ chanFree (cr (strmOp 0x10 3)) (op 0 (strm 0x10)) = true ∧
    groupOpen (strmOp 0x12 3).work 5 (op 0 (strm 0x12)) = true ∧
    gives (opRead (cr (strmOp 0x10 3)) (strm 0x10) (strmDesc (strm 0x10)) 64) (desc1 3) = true ∧
    descBad (BitVec.ofNat 512 (leNat (desc1 3))) false false = true ∧
    [0x10, 0x11, 0x12].all (fun opc => after (exec (if opc = 0x10 then .streamRd 5 0 else if opc = 0x11 then .streamWr 5 0
      else .streamMcast 5 0) (strmOp opc 3)) fun t => kinds t = [8] && (t.work.faultQ.map fun m => m.addr.toNat) = [0x900000]) = true := by
  decide +kernel

theorem witness_StreamsStart_read :
    startable (strmOp 0x10 0).work 5 (op 0 (strm 0x10)) = true ∧ descBad (BitVec.ofNat 512 (leNat (desc1 0))) false false = false ∧
    gives (opRead (cr (strmOp 0x10 0)) (strm 0x10) (strmDesc (strm 0x10)) 64) (desc1 0) = true ∧
    0 < dTotal (BitVec.ofNat 512 (leNat (desc1 0))) ∧ dOrder (BitVec.ofNat 512 (leNat (desc1 0))) = false ∧
    after (exec (.streamRd 5 0) (strmOp 0x10 0)) (fun t => (getChan (cr t) 7).state = 1 && (getChan (cr t) 7).cur = 0x40000000 &&
      stageOf t = some .reading) = true := by decide +kernel

/-- The write's data are the zeros of region 1. -/
def wrState : State := opOver (op 0 (strm 0x11)) (desc1 0) []

theorem witness_StreamsStart_write :
    startable wrState.work 5 (op 0 (strm 0x11)) = true ∧ opnd (srcA (strm 0x11)) = .ledge 1 ∧
    gives (opRead (cr wrState) (strm 0x11) (opndLedge (srcA (strm 0x11))) 128) (zeros 128) = true ∧
    after (exec (.streamWr 5 0) wrState) (fun t => stageOf t = some .acking && (getChan (cr t) 7).done = 1) = true := by decide +kernel

theorem witness_StreamsStart_member :
    startable (strmOp 0x12 0).work 5 (op 0 (strm 0x12)) = true ∧ groupOpen (strmOp 0x12 0).work 5 (op 0 (strm 0x12)) = true ∧
    descBad (BitVec.ofNat 512 (leNat (desc1 0))) true true = false ∧
    after (exec (.streamMcast 5 0) (strmOp 0x12 0)) (fun t => t.work.mcast = [(2, some [(5, 0)])] && stageOf t = some .member &&
      (getChan (cr t) 7).state = 4) = true := by decide +kernel

def chanAt (opc asp : Nat) : Chan := { Chan.reset with
  state := 1, op := 0, desc := BitVec.ofNat 512 (leNat (desc1 asp)), cur := 0x40000000, opc := BitVec.ofNat 8 opc }

/-- The stream op of strmOp under way. -/
def reading (opc asp : Nat) (h : Chan → Chan) (st : Stage := .reading) : State := onC fun x => { x with
  ops := [{ op 0 (strm opc) with stage := st, mcSet := [5] }], tlb := [tlb512], chans := [(7, h (chanAt opc asp))] }

def readyGroup : State :=
  { reading 0x12 0 id .member with work := { (reading 0x12 0 id .member).work with mcast := [(2, some [(5, 0)])] } }

theorem witness_StreamsStart_fetch :
    Tab.get (fun _ => (none : Option (List (Nat × Nat)))) readyGroup.work.mcast 2 = some [(5, 0)] ∧
    (getChan (cr readyGroup) 7).next < dTotal (getChan (cr readyGroup) 7).desc ∧ (cr readyGroup).fe.frozen = false ∧
    after (exec (.mcastFetchStart 2) readyGroup) (fun t => stageOf t = some .reading) = true := by decide +kernel

theorem witness_LastBlockEntersTheQueue_device :
    let s := reading 0x10 0 id
    opnd (dstOf (strm 0x10)) = .queue 3 ∧ qFull (cr s) 3 = false ∧ dTotal (getChan (cr s) 7).desc = (getChan (cr s) 7).next + 1 ∧
    (vRead s.work (.crag 5) (strmReq s.work 5 (getChan (cr s) 7).desc) 0x40000000 128).2.2 = (false, none) ∧
    after (exec (.streamReadReturn 5 0) s) (fun t => (getQueue (cr t) 3).ents = [⟨zeros 128, true, false⟩] && stageOf t = some .done &&
      countOf t = some 1) = true := by decide +kernel

theorem witness_LastBlockEntersTheQueue_host :
    let s := reading 0x10 1 fun h => { h with pages := [0x40000], asked := true }
    (getChan (cr s) 7).asked = true ∧ isStandby s.work = false ∧ s.work.fwding = false ∧
    after (exec (.hostReadCompletion 5 0 .ok (List.replicate 128 7) false) s) (fun t =>
      (getQueue (cr t) 3).ents = [⟨List.replicate 128 7, true, false⟩]) = true ∧
    after (exec (.completionTimeout 5 0) s) (fun t =>
      (getQueue (cr t) 3).ents = [⟨zeros 128, true, true⟩] && kinds t = [0x59] && t.work.cplErr) = true := by decide +kernel

theorem witness_HostPagesAreAskedFor :
    let s := reading 0x10 1 id
    let g := reading 0x10 1 fun h => { h with state := 3, faultVa := 0x40000000 }
    let late := { g with work := { g.work with now := BitVec.ofNat 64 (od g.work 0x1307) } }
    (hostChan s.work 5 7).isSome = true ∧ (hostChan g.work 5 7).isSome = true ∧ s.work.hostGone = false ∧ s.work.fwdData = [] ∧
    pagesHeld s.work < 4096 ∧ tagsUsed s.work 5 0 < 768 ∧ pagesAsked s.work < 512 ∧ tagsUsed g.work 5 0 < 768 ∧ s.work.invals.length < 32 ∧
    (getChan (cr s) 7).pack = [] ∧
    hostPage (readBlock (getChan (cr s) 7)) ∉ (getChan (cr s) 7).pages ∧ (getChan (cr s) 7).cur = dAddr (getChan (cr s) 7).desc 0 0 ∧
    after (exec (.atsTranslationResponse 5 7 .present) s) (fun t => t.work.out = [.hostRead 0 0x40000000 128 false] && (getChan (cr t) 7).asked) = true ∧
    after (exec (.atsTranslationResponse 5 7 .notPresent) s) (fun t => t.work.out = [.pageRequest 0 0x40000000] &&
      (getChan (cr t) 7).state = 3) = true ∧
    after (exec (.pageRequestResponse 5 7 true) g) (fun t => t.work.out = [.atsRequest 0 0x40000]) = true ∧
    after (exec (.pageRequestResponse 5 7 false) g) (fun t => kinds t = [9] && t.work.priFail) = true ∧
    after (exec (.priTimeout 5 7) late) (fun t => kinds t = [9] && (getChan (cr t) 7).pfFail) = true ∧
    g.work.now.toNat < (getChan (cr g) 7).since.toNat + od g.work 0x1307 ∧
    after (exec (.atsInvalidation 0 0x40000) (reading 0x10 1 fun h => { h with pages := [0x40000] })) (fun t =>
      t.work.out = [.atsInvalidated 0 0x40000] && (getChan (cr t) 7).pages = []) = true := by decide +kernel

/-! ## The scheduled region -/

/-- STREAM.REGION with LIMIT 100 and TOL 5; STREAM.CLOSE. -/
def regionPkt : Packet := pk [(0, 0x1C), (15, 1), (160, 100), (192, 5)]
def closePkt : Packet := pk [(0, 0x1D), (15, 1)]

theorem witness_RegionsAndCounts_region :
    startable (onOp (op 0 regionPkt)).work 5 (op 0 regionPkt) = true ∧
    after (exec (.streamRegion 5 0) (onOp (op 0 regionPkt))) (fun t => (cr t).region.state = 1 && (cr t).region.limit = 100 &&
      (cr t).region.tol = 5 && stageOf t = some .done) = true ∧
    startable (onOp (op 0 closePkt)).work 5 (op 0 closePkt) = true ∧ schedBefore (cr (onOp (op 0 closePkt))) 0 = false ∧
    after (exec (.streamClose 5 0) (onOp (op 0 closePkt))) (fun t => (cr t).region.state = 0 && (cr t).ops = []) = true := by
  decide +kernel

theorem witness_RegionsAndCounts_late :
    let s := onC fun x => { x with region := { x.region with state := 2, limit := 10, timer := 11, tol := 5, waitEu := 5 } }
    lateDue (cr s) = true ∧ tolPassed (cr s) = false ∧
    after (exec (.late 5) s) (fun t => kinds t = [1] && (cr t).region.lateLimit && !(cr t).region.lateTol && (cr t).fe.frozen) = true := by
  decide +kernel

theorem witness_RegionsAndCounts_deadlock :
    let s := onC fun x => { x with region := { x.region with blocked := 65536 } }
    let b := onC fun x => { x with region := { x.region with blocked := 65535 } }
    qdlDue s.work 5 = true ∧ lateDue (cr s) = false ∧ after (exec (.qdeadlock 5) s) (fun t => kinds t = [2] && (cr t).region.qdl = 1) = true ∧
    after (exec (.qdeadlock 5) b) (fun t => kinds t = []) = true := by decide +kernel

theorem witness_RegionsAndCounts_bivouac :
    let s := onC fun x => { x with ops := [{ op 0 (pk [(0, 0x81)]) with stage := .waiting }], idle := 4096 }
    bivCond (cr s) = true ∧ after (exec (.bivouacEnter 5) s) (fun t => (cr t).bivouac) = true := by decide +kernel

/-! ## Engines -/

/-- SMMA.PRUNE is absent in grade N. -/
theorem witness_EngineOpsStartAndRun_absent :
    let o := op 0 (pk [(0, 0x2C)])
    let s := { onOp o with work := { (onOp o).work with fuses := { Fuses.reset with gradeN := true } } }
    startable s.work 5 o = true ∧ absent s.work o.pkt = true ∧
    after (exec (.smmaPrune 5 0) s) (fun t => kinds t = [5] && (t.work.faultQ.map fun m => m.addr.toNat) = [0x2C00]) = true := by
  decide +kernel

/-- VOP.ADD in INT32 of one row of 4 columns: Q0 and V1 to V2. -/
def vadd (a : Nat) : Packet := pk [(0, 0x40), (16, a), (26, 0x301), (46, 0x302), (128, 1), (144, 4), (166, 9), (170, 9)]

theorem witness_EngineOpsStartAndRun_short :
    let o := op 0 (vadd 0x100)
    startable (onOp o).work 5 o = true ∧ absent (onOp o).work o.pkt = false ∧
    after (exec (.vectorChainStart 5 0) (onOp o)) (fun t => stageOf t = some .gathering && kinds t = [] && (cr t).cntEu = 0) = true := by
  decide +kernel

theorem witness_EngineOpsStartAndRun_run :
    let o := op 0 (vadd 0x300)
    let s := onC fun x => { x with ops := [o], vregs := [(0, 5), (1, 0xFFFFFFFF), (64, 7), (65, 1)] }
    startable s.work 5 o = true ∧
    after (exec (.vectorChainStart 5 0) s) (fun t => stageOf t = some .done && kinds t = [] &&
      (List.range 3).map (fun j => Tab.get (bvD 32) (cr t).vregs (128 + j)) = [12, 0, 0]) = true := by decide +kernel

/-- A directory entry (Table 8.1) of 4 rows of 8 FP32 elements at 0x40001000. -/
def table8 : List Byte := img 64 [(0, 0x40001000), (50, 1), (64, 1), (72, 4), (120, 4)]

/-- EUPD.WRITE of one index in region 0 with its row in region 1. -/
def eupdPkt : Packet := pk [(0, 0x78), (16, 0x200), (26, 0x201), (72, 2), (144, 1)]

def eupdState : State :=
  let s := opOver (op 0 eupdPkt) (natLe 4 3) (List.replicate 32 0x3F)
  { s with work := writePa (setOd s.work 0x400E 0 0 0x40000000) (req 0 0) 0x40000000 table8 false }

theorem witness_EngineOpsStartAndRun_update :
    startable eupdState.work 5 (op 0 eupdPkt) = true ∧
    after (exec (.eupdWrite 5 0) eupdState) (fun t => stageOf t = some .acking && ((findOp (cr t) 0).map (·.acks)) = some 1 &&
      ((List.range 8).flatMap fun u => (getUpd t.work u).queue.map (·.idx)) = [3]) = true := by decide +kernel

theorem witness_EngineOpsStartAndRun_flags :
    let o := op 1 (pk [(0, 0x4F), (128, 0x41)])
    let s := onC fun x => { x with ops := [o], ex := { x.ex with vflags := 0x43, vlanef := [(0, 3), (1, 4)] } }
    let b := onC fun x => { x with ops := [op 0 (vadd 0x100), o] }
    startable s.work 5 o = true ∧ unitDrained (cr s) o = true ∧ unitDrained (cr b) o = false ∧
    after (exec (.vopFlags 5 1) s) (fun t => (cr t).ex.vflags = 2 && (cr t).ex.vlanef = [(1, 4)] &&
      ((findOp (cr t) 1).map (·.stage)) = some .done) = true ∧
    after (exec (.vopFlags 5 1) b) (fun t => ((findOp (cr t) 1).map (·.stage)) = some .dispatched) = true := by decide +kernel

theorem witness_FabricIntegerResults :
    (-2 ^ 31 : Int) ≤ -2147483648 ∧ (2147483647 : Int) < 2 ^ 31 ∧
    (dotOut 0 true (.i 2147483647) [(some (.i 1), some (.i 1))]).1 = .i (-2147483648) ∧
    (semiFold 1 0 (.i 5) none [.i 7, .i (-3)]).1 = .i (-3) := by decide +kernel

/-! ## Belays and tasks -/

/-- BELAY.POST of 4 to Belay 65535; tenancy 0 owns the Belays that its base and count name. -/
def postPkt : Packet := pk [(0, 0x80), (128, 65535), (192, 4)]

def ownAll (s : State) : State := { s with work := setOd s.work 0x4007 0 0 65536 }

theorem witness_PostsAreSentAndApplied_send :
    let s := ownAll (onOp (op 0 postPkt))
    startable s.work 5 (op 0 postPkt) = true ∧ mayBelay s.work 0 33 65535 = true ∧
    after (exec (.belayPost 5 0) s) (fun t => t.work.posts.map (fun p => (p.belay, p.inc)) = [(65535, 4)] && stageOf t = some .done) = true := by
  decide +kernel

theorem witness_PostsAreSentAndApplied_range :
    let s := { onOp (op 0 postPkt) with work := setOd (onOp (op 0 postPkt)).work 0x4007 0 0 65535 }
    startable s.work 5 (op 0 postPkt) = true ∧ mayBelay s.work 0 33 65535 = false ∧
    after (exec (.belayPost 5 0) s) (fun t => kinds t = [0x21] && t.work.posts = [] && (cr t).ac.bRange) = true := by decide +kernel

/-- BELAY.POST to Belay 65535 of the device that it names, which is this one. -/
theorem witness_PostsAreSentAndApplied_remote :
    let o := op 0 (pk [(0, 0x80), (128, 65535), (144, devId base.work), (160, 1), (192, 4)])
    startable (onOp o).work 5 o = true ∧ silenced (onOp o).work = false ∧ fld o.pkt 144 16 = devId (onOp o).work ∧
    after (exec (.belayPost 5 0) (onOp o)) (fun t => t.work.loopQ.map (fun f => (f.typ, f.addr, f.inc)) = [(3, 65535, 4)] &&
      t.work.posts = [] && t.work.remotes.length = 1 && stageOf t = some .waiting) = true := by decide +kernel

/-- Belay 9 at a value with one post of 2 on its way. -/
def posted (v : W64) : State := onW fun w => { setBelay w 9 { Belay.reset with value := v } with
  posts := [{ belay := 8, inc := 1, sig := 0, crag := none, reply := none }, { belay := 9, inc := 2, sig := 77, crag := none, reply := none }] }

theorem witness_PostsAreSentAndApplied_apply :
    (posted 5).work.posts.find? (fun q => decide (q.belay = 9)) = some { belay := 9, inc := 2, sig := 77, crag := none, reply := none } ∧
    (getBelay (posted 5).work 9).waiters = [] ∧
    after (exec (.belayPostApply 9) (posted 5)) (fun t => (getBelay t.work 9).value = 7 && !(getBelay t.work 9).sat &&
      (getBelay t.work 9).lastSig = 77 && t.work.posts.length = 1) = true ∧
    after (exec (.belayPostApply 9) (posted 0xFFFFFFFFFFFFFFFE)) (fun t =>
      (getBelay t.work 9).value = 0xFFFFFFFFFFFFFFFF && (getBelay t.work 9).sat) = true := by decide +kernel

/-- Two posts of the host on their way: the later is not applied first. -/
theorem witness_PostsAreSentAndApplied_behind :
    let p := fun b => { belay := b, inc := 2, sig := sigKind base.work 1, crag := none, reply := none : Post }
    let s := onW fun w => { w with posts := [p 8, p 9] }
    postBehind s.work.posts (p 9) = true ∧ postBehind s.work.posts (p 8) = false ∧
    after (exec (.belayPostApply 9) s) (fun t => (getBelay t.work 9).value = 0 && t.work.posts.length = 2) = true ∧
    after (exec (.belayPostApply 8) s) (fun t => (getBelay t.work 8).value = 2 && t.work.posts.length = 1) = true := by decide +kernel

/-- BELAY.WAIT on Belay 9 for 5. -/
def waitPkt : Packet := pk [(0, 0x81), (128, 9), (192, 5)]

def waiting (v : W64) : State :=
  let s := ownAll (onOp (op 0 waitPkt))
  { s with work := setBelay s.work 9 { Belay.reset with value := v } }

theorem witness_BelayWaitsRegisterCompleteOrTimeOut_met :
    startable (waiting 5).work 5 (op 0 waitPkt) = true ∧ mayBelay (waiting 5).work 0 34 9 = true ∧
    waitMet (getBelay (waiting 5).work 9).value (waitTarget (cr (waiting 5)) waitPkt) = true ∧
    after (exec (.belayWait 5 0) (waiting 5)) (fun t => (cr t).ops = [] && (cr t).cntAu = 1) = true := by decide +kernel

theorem witness_BelayWaitsRegisterCompleteOrTimeOut_registered :
    waitMet (getBelay (waiting 4).work 9).value (waitTarget (cr (waiting 4)) waitPkt) = false ∧
    after (exec (.belayWait 5 0) (waiting 4)) (fun t => stageOf t = some .waiting &&
      (getBelay t.work 9).waiters = [{ crag := 5, unit := 0, op := 0, target := 5, elapsed := 0 }]) = true := by decide +kernel

theorem witness_BelayWaitsRegisterCompleteOrTimeOut_timeout :
    let o := { op 0 waitPkt with stage := .waiting, targets := [(9, 5)] }
    let s := { onOp o with work := setOd (setBelay (onOp o).work 9 { Belay.reset with
      waiters := [{ crag := 5, unit := 0, op := 0, target := 5, elapsed := 40 }] }) 0x4020 0 0 40 }
    waiterOf s.work 5 o = some (9, { crag := 5, unit := 0, op := 0, target := 5, elapsed := 40 }) ∧
    od s.work 0x4020 0 (tenOfCrag s.work 5) ≤ 40 ∧
    after (exec (.belaytmo 5 0) s) (fun t => kinds t = [0x20] && (cr t).ops = [] && (cr t).ac.bTimeout) = true := by decide +kernel

/-- TASK.TAKE from list 0 into slot 3 and Ledge region 2, waiting or with NOWAIT. -/
def takePkt (nowait : Nat) : Packet := pk [(0, 0x84), (46, 0x202), (88, 2), (96, 1), (128, 1), (136, 3), (138, nowait)]

theorem witness_TasksArePutGrantedAndDone_take :
    let s := onOp (op 0 (takePkt 0))
    let q := onOp (op 0 (takePkt 1))
    od s.work 0x2322 = 0 ∧ startable s.work 5 (op 0 (takePkt 0)) = true ∧ getSlot (cr s) 3 = none ∧
    takeScan (setCrag s.work 5 (startSeq (cr s) (op 0 (takePkt 0)))) 0 1 = none ∧
    after (exec (.taskTake 5 0) s) (fun t => t.work.sched.takers.map (fun k => (k.crag, k.slot)) = [(5, 3)] && stageOf t = some .waiting) = true ∧
    after (exec (.taskTake 5 0) q) (fun t => t.work.sched.takers = [] && stageOf t = some .done && countOf t = some 0) = true := by
  decide +kernel

/-- TASK.PUT of one entry in region 0: flow 3 in bits 512 on is read as Table 9.4 lays it out. -/
def putPkt : Packet := pk [(0, 0x85), (16, 0x200), (72, 1), (128, 1)]
def doneTask : Packet := pk [(0, 0x86), (128, 3)]

def putState : State :=
  let s := opOver (op 0 putPkt) [1, 2, 3] []
  { s with work := setOd (setOd s.work 0x400A 0 0 1048576) 0x400B 0 0 1 }

theorem witness_TasksArePutGrantedAndDone_put :
    startable putState.work 5 (op 0 putPkt) = true ∧ ackedBefore putState.work 5 0 = true ∧
    (let k := taskOf (ledgeGet (cr putState) 0 128) 0 0 5 0
     let w := setCrag putState.work 5 (startSeq (cr putState) (op 0 putPkt))
     ownsFlow w 0 k.flow = true ∧ putWaits w k = false ∧ k.release.toNat ≤ putState.work.now.toNat ∧
     (storeTask (wakeFlow (takeSeq w).2 k.flow) { k with seq := putState.work.sched.nextSeq }).1.hold = none) ∧
    after (exec (.taskPut 5 0) putState) (fun t => (t.work.sched.ready.map (·.payload)) = [0x030201] && t.work.sched.nextSeq = 1 &&
      (t.work.sched.ready.map fun k => (readTask t.work k).2 == some k) = [true] && countOf t = some 1) = true := by decide +kernel

/-- A task of tenancy 0 on list 0. -/
def task0 (seq : Nat) : Task :=
  { payload := 7, flow := 0, atomic := false, list := 0, release := 0, putCrag := 1, putUnit := 0, ten := 0, seq := seq, store := 0, ret := false }

theorem witness_TasksArePutGrantedAndDone_done :
    let n := onOp (op 0 doneTask)
    let s := onC fun x => { x with ops := [op 0 doneTask], slots := [(3, some (task0 4))] }
    startable n.work 5 (op 0 doneTask) = true ∧ getSlot (cr n) 3 = none ∧ getSlot (cr s) 3 = some (task0 4) ∧
    (∀ e ∈ s.work.crags, ∀ p ∈ e.2.ops, p.stage ≠ .waiting) ∧
    after (exec (.taskDone 5 0) n) (fun t => (cr t).ac.tDoneEmpty && countOf t = some 0) = true ∧
    after (exec (.taskDone 5 0) s) (fun t => getSlot (cr t) 3 = none && countOf t = some 1) = true := by decide +kernel

/-- Crag 5 waits for a task of list 0, which has become eligible; its entry stands at 0x40000000. -/
def stored8 : Task := { task0 8 with store := 0x40000000 }

def taking : State :=
  let s := onC fun x => { x with ops := [{ op 0 (takePkt 0) with stage := .waiting }] }
  let w := writePa s.work (req 0 0) 0x40000000 (taskBytes stored8 0) false
  { s with work := { w with sched := { Sched.reset with
    ready := [stored8]
    elig := [8]
    takers := [{ crag := 5, unit := 0, op := 0, ten := 0, mask := 1, slot := 3, since := 0 }] } } }

theorem witness_TasksArePutGrantedAndDone_grant :
    let r := readTask taking.work stored8
    nextGrant taking.work = some stored8 ∧ ((grantee taking.work stored8).map fun g => (g.1.crag, g.1.slot)) = some (5, 3) ∧
    getSlot (cr taking) 3 = none ∧ r.2 = some stored8 ∧ r.1.hold = none ∧ od r.1 0x2322 = 0 ∧
    taking.work.retired = [] ∧ (taking.work.sched.ready ++ taking.work.sched.delay).find? (fun q => decide (q.seq = stored8.seq)) = some stored8 ∧
    after (exec (.taskGrant 8) taking) (fun t => getSlot (cr t) 3 = some stored8 && t.work.sched.ready = [] &&
      t.work.sched.takers = []) = true := by decide +kernel

theorem witness_TasksArePutGrantedAndDone_release :
    let k := { task0 2 with release := 100 }
    let s := onW fun w => { w with now := 100, sched := { Sched.reset with delay := [k] } }
    let e := { s with ev := { Events.reset with table := [(0, { EvEntry.free with action := 8, tick := 99 })] } }
    s.work.sched.delay = k :: [] ∧ k.release.toNat ≤ s.work.now.toNat ∧ eventBefore s k = false ∧ eventBefore e k = true ∧
    after (exec (.delayRelease 2) s) (fun t => t.work.sched.ready = [k] && t.work.sched.delay = []) = true ∧
    after (exec (.delayRelease 2) e) (fun t => t.work.sched.ready = [] && t.work.sched.delay = [k]) = true := by decide +kernel

def epochPkt (set v : Nat) : Packet := pk [(0, 0x88), (128, set), (192, v)]

theorem witness_MarksOutsideDuplex_epoch :
    let s := fun p => onC fun x => { x with ops := [op 0 p], epoch := 6 }
    (s (epochPkt 1 70)).work.duplex = false ∧ startable (s (epochPkt 1 70)).work 5 (op 0 (epochPkt 1 70)) = true ∧
    ackedBefore (s (epochPkt 1 70)).work 5 0 = true ∧
    after (exec (.markEpoch 5 0) (s (epochPkt 1 70))) (fun t => (cr t).epoch = 70 && countOf t = some 1) = true ∧
    after (exec (.markEpoch 5 0) (s (epochPkt 0 0))) (fun t => (cr t).epoch = 7) = true := by decide +kernel

theorem witness_MarksOutsideDuplex_digest :
    let p := pk [(0, 0x89), (16, 0x200), (72, 1), (128, 2)]
    startable (onOp (op 0 p)).work 5 (op 0 p) = true ∧ gives (opRead (cr (onOp (op 0 p))) p (opndLedge (srcA p)) (128 * fld p 128 16)) (zeros 256) = true ∧
    after (exec (.markDigest 5 0) (onOp (op 0 p))) (fun t => countOf t = some 2 && stageOf t = some .done) = true := by decide +kernel

/-! ## Crags and Summits from BAR0 -/

theorem witness_CragResetIsRefusedWhileRunning :
    winUnit (onS id) (bankNo .basecamp) 0 = some 5 ∧ (getSummit (onS id).work (leaderOfCrag (onS id).work 5)).state = .running ∧
    after (exec (.cragReset .basecamp) (onS id)) (fun t => (cr t).refused) = true := by decide +kernel

theorem witness_CragAndPartyResets_crag :
    let s := onC fun x => { x with ops := [op 0 rdQ3], queues := [(3, ⟨[⟨[1], true, false⟩], 0, 1⟩)], ledge := [(9, 4)], vregs := [(0, 1)] }
    winUnit s (bankNo .basecamp) 0 = some 5 ∧ (getSummit s.work (leaderOfCrag s.work 5)).state ≠ .running ∧
    decide (unregister s.work 5 = s.work) = true ∧
    after (exec (.cragReset .basecamp) s) (fun t => (cr t).ops = [] && (cr t).queues = [] && (cr t).vregs = [] && (cr t).ledge = [(9, 4)]) = true := by
  decide +kernel

theorem witness_CragAndPartyResets_party :
    let s := onS fun m => { m with xs := [(3, 8)], stall := some (.fence 4) }
    winUnit s (bankNo .basecamp) 6 = some 0 ∧ (su s).state ≠ .ganged ∧ (partyReset s.work 0).hold = none ∧
    (∀ c ∈ partyCrags s.work 0, (getCrag s.work c).slots = []) ∧ (∀ k ∈ partySpurs s.work 0, isWithdrawn s.work k = false) ∧
    after (exec (.summitReset .basecamp) s) (fun t => (su t).state = .reset && (su t).stall = none && (su t).xs = [(3, 8)]) = true := by
  decide +kernel

/-- base with Summit 0 in a state, not running. -/
def inState (st : SumState) (f : Summit → Summit := id) : State := onW fun w => setSummit w 0 (f { Summit.reset 0 with state := st })

theorem witness_SummitActionsRunHaltAndLoad_run :
    let s := inState .reset fun m => { m with pcStart := 0x101 }
    s.work.dstate = .run ∧ (partySpurs s.work 0).any (isWithdrawn s.work) = false ∧ sparing s.work 0 = false ∧
    after (exec (.summitRun .basecamp) s) (fun t => (su t).state = .running && (su t).pc = 0x100) = true ∧
    after (exec (.summitRun .basecamp) (inState .halted fun m => { m with pc := 8 })) (fun t =>
      (su t).state = .running && (su t).pc = 8) = true ∧
    after (exec (.summitHalt .basecamp) (onS id)) (fun t => (su t).state = .halted) = true ∧
    after (exec (.summitLoad .basecamp) s) (fun t => (su t).state = .loading) = true := by decide +kernel

theorem witness_SummitActionsRunHaltAndLoad_loadDone :
    let s := inState .loading fun m => { m with imemSrc := 0x40000000, imemLen := 16, dmemSrc := 0x40000000, dmemLen := 8, tlb := [tlb512] }
    (loadImage s.work 0 0x40000000 16).2 = (zeros 16, true) ∧
    (loadImage (loadImage s.work 0 0x40000000 16).1 0 0x40000000 8).2 = (zeros 8, true) ∧
    after (exec (.summitLoadDone 0) s) (fun t => (su t).state = .reset && !(su t).loadErr) = true := by decide +kernel

theorem witness_PartyWritesFormParties :
    let s := inState .halted
    let v : W32 := 0x00003
    winUnit s (bankNo .basecamp) 6 = some 0 ∧ partyOk s.work 0 3 0 = true ∧ partyOk s.work 0 2 0 = false ∧
    after (exec (.summitPartyWrite .basecamp v) s) (fun t => (getSummit t.work 1).lead = 0 && (getSummit t.work 1).state = .ganged) = true ∧
    after (exec (.summitPartyWrite .basecamp 2) s) (fun t => (su t).cfgRefused && (getSummit t.work 1).lead = 1) = true := by decide +kernel

theorem witness_SelectAndRegisterWrites_select :
    (0x1305 ∈ selectObjects) ∧ (findObj 0x1305 0).isSome = true ∧
    after (exec (.selectWrite .basecamp 6 0xFF) base) (fun t => selVal t 1 6 = 15 && selVal t 1 0 = 5) = true := by decide +kernel

theorem witness_SelectAndRegisterWrites_registers :
    wideKind 0x9010 = some .act ∧ winUnit base 1 0 = some 5 ∧ winUnit base 1 2 = some 0 ∧ getHeld base 1 0x9010 = (0 : W32).toNat ∧
    after (exec (.bar0LowHalfWrite .basecamp 0x9010 7) base) (fun t => getHeld t 1 0x9010 = 7 && t.work.posts = []) = true ∧
    after (exec (.registerWrite .basecamp 0x4110 4 1) (onC fun x => { x with ex := { x.ex with fflags := 3 } })) (fun t =>
      (cr t).ex.fflags = 2) = true ∧
    after (exec (.registerWrite .basecamp 0x6014 4 0x12345) base) (fun t => (getSlice t.work 0).noAlloc = 0x2345) = true ∧
    base.host.d3hot = false ∧ after (exec (.registerWrite .hostEp 0x6014 4 0x12345) base) (fun t => (getSlice t.work 0).noAlloc = 0x2345 && kinds t = [0x58]) = true ∧
    isStandby base.work = false ∧ base.work.fwding = false ∧ behind base.work (.registerWrite .host 0 0 0) = false := by decide +kernel

theorem witness_BelayRegistersPostAndSet :
    let h := onW fun w => { w with bar2Acks := 2 }
    let b := onW fun w => setBelay w 0 { Belay.reset with waiters := [{ crag := 5, unit := 0, op := 0, target := 9, elapsed := 0 }] }
    winUnit base 1 5 = some 0 ∧ winUnit h 0 5 = some 0 ∧ h.host.d3hot = false ∧ isStandby h.work = false ∧ h.work.fwding = false ∧
    (getBelay base.work 0).waiters = [] ∧ (getBelay b.work 0).waiters ≠ [] ∧
    after (exec (.belayPostRegister .basecamp 3) base) (fun t => t.work.posts.map (·.inc) = [3]) = true ∧
    after (exec (.belayPostRegister .basecamp 0x100000000) base) (fun t => t.work.posts = []) = true ∧
    after (exec (.belayPostRegister .host 3) h) (fun t => t.work.posts = [] && t.work.hostWait = [(2, .post 0 3)]) = true ∧
    after (exec (.belaySet .basecamp 9) base) (fun t => (getBelay t.work 0).value = 9) = true ∧
    after (exec (.belaySet .basecamp 9) b) (fun t => (getBelay t.work 0).refused && (getBelay t.work 0).value = 0) = true := by decide +kernel

/-! ## The cache -/

/-- The block 0x40000000 and its slice. -/
def pa0 : Nat := 0x40000000
def d0 : Nat := sliceOf pa0

/-- An enabled slice with all ways in use. -/
def slice0 : Slice := { Slice.reset with enabled := true, wayEn := 0xFFFF, wayPwr := 0xFFFF }

/-- base with the slice of pa0, changed. -/
def onD (f : Slice → Slice) : State := onW fun w => setSlice w d0 (f slice0)

/-- Way 15 holds pa0's sector: valid, clean, with byte 0 equal to 0x77. -/
def hitState : State := onD fun x => { x with
  lines := [(16 * setOf pa0 + 15, { tag := tagOf pa0, sec := [⟨true, false, false⟩, sectorNone, sectorNone, sectorNone] })]
  data := [(512 * (16 * setOf pa0 + 15), 0x77)] }

theorem witness_CacheReadsHitOrWaitForTheirFill_hit :
    paStatus hitState.work pa0 = .ok ∧ hitWay (getSlice hitState.work d0) pa0 = some 15 ∧ fillOf (getSlice hitState.work d0) pa0 = none ∧
    lineWaits hitState.work pa0 = false ∧
    after (exec (.cacheRead (pa0 + 5) 0 0 false) hitState) (fun t => t.work.out = [.cacheData pa0 (0x77 :: zeros 127) false] &&
      (getSlice t.work d0).hits = 1) = true := by decide +kernel

/-- Channel 0 held by a retrain. -/
def heldState : State := { onD id with work := setCh (onD id).work 0 { MemCh.reset with state := 3, retrain := true, trained := true } }

theorem witness_CacheReadsHitOrWaitForTheirFill_miss :
    let r : FillReq := { cls := 1, ten := 2, bypass := false }
    let f : Fill := { pa := pa0, ten := 2, pre := false, reqs := [r] }
    let s := onD fun x => { x with fills := [f] }
    readWaits heldState.work pa0 = true ∧ lineWaits heldState.work pa0 = false ∧ lineWaits s.work pa0 = false ∧
    (getSlice heldState.work d0).fills.length < 4096 ∧ fillOf (getSlice heldState.work d0) pa0 = none ∧ paStatus s.work pa0 = .ok ∧
    filling (getSlice s.work d0) pa0 = true ∧
    after (exec (.cacheRead pa0 1 2 false) heldState) (fun t => (getSlice t.work d0).fills = [f]) = true ∧
    after (exec (.cacheRead pa0 1 2 false) s) (fun t => (getSlice t.work d0).fills = [{ f with reqs := [r, r] }]) = true := by
  decide +kernel

theorem witness_CacheReadsHitOrWaitForTheirFill_fill :
    let f : Fill := { pa := pa0, ten := 2, pre := false, reqs := [{ cls := 1, ten := 2, bypass := false }] }
    let s := onD fun x => { x with fills := [f] }
    ((getSlice s.work d0).fills.find? fun g => g.pa = pa0 / 512 * 512 + 0 % 4 * 128) = some f ∧
    (memRead (onD id).work { cls := 1, ten := 2, bypass := false, port := false } pa0).1.hold = none ∧
    pa0 / 512 ∉ (getSlice (memRead (onD id).work { cls := 1, ten := 2, bypass := false, port := false } pa0).1 d0).cmoPend ∧
    after (exec (.cacheFillDone d0 (pa0 / 512) 0) s) (fun t => t.work.out = [.cacheData pa0 (zeros 128) false] &&
      (getSlice t.work d0).fills = []) = true := by decide +kernel

/-- R358: a write that meets a hold waits, and happens at the tick after the hold. -/
def writeHeld : Res := exec (.cacheWrite pa0 0 0 true (List.replicate 128 9) false) heldState

def afterHold (r : Res) : Res :=
  match r with
  | .next t => step { t with work := setCh t.work 0 { MemCh.reset with state := 2, trained := true } }
  | r => r

theorem test_held_writes_wait_and_happen :
    after writeHeld (fun t => t.work.waiting.length = 1 && t.work.dram = [] && t.work.hold = none) = true ∧
    after (afterHold writeHeld) (fun t => t.work.waiting.length = 0 && (peekBlock t.work pa0).1.head? = some 9) = true := by decide +kernel

theorem witness_CacheWritesTheBlockTheyHit :
    let bs : List Byte := 0x11 :: zeros 127
    bs.length = 128 ∧ paStatus hitState.work pa0 = .ok ∧ hitWay (getSlice hitState.work (sliceOf pa0)) pa0 = some 15 ∧
    fillOf (getSlice hitState.work (sliceOf pa0)) pa0 = none ∧ lineWaits hitState.work pa0 = false ∧
    (getSlice hitState.work (sliceOf pa0)).sweep = false ∧ hitState.work.mirror = 0 ∧
    after (exec (.cacheWrite pa0 0 0 false bs false) hitState) (fun t => peekBlock t.work pa0 = (bs, false) && t.work.dram = []) = true := by
  decide +kernel

theorem witness_MaintenanceRunsAndRefuses :
    let s := onW fun w => setSlice w 0 { slice0 with
      lines := [(16 * setOf 0 + 15, { tag := 3, sec := [⟨true, true, false⟩, sectorNone, sectorNone, sectorNone] })] }
    let b := onW fun w => setSlice w 0 { slice0 with cmoBusy := true }
    winUnit s (bankNo .basecamp) 2 = some 0 ∧ (getSlice s.work 0).wayPwr.getLsbD 15 = true ∧ (getSlice s.work 0).waySweep.getLsbD 15 = false ∧
    (cmoStart s.work 0 2 true 15 1).hold = none ∧ (getSlice s.work 0).fills = [] ∧ s.work.waiting = [] ∧ (getSlice b.work 0).cmoPend = [] ∧
    after (exec (.invalidate .basecamp true 15) s) (fun t => (getSlice t.work 0).cmoBusy && (getSlice t.work 0).lines = [] && t.work.dram = []) = true ∧
    [Instr.clean .basecamp true 15, .cleanInvalidate .basecamp true 15, .zeroLine .basecamp false 0].all (fun c =>
      after (exec c s) (fun t => (getSlice t.work 0).cmoBusy) && after (exec c b) (fun t => (getSlice t.work 0).cmoRefused)) = true ∧
    after (exec (.cmoDone 0) b) (fun t => (getSlice t.work 0).cmoDone && !(getSlice t.work 0).cmoBusy) = true := by decide +kernel

theorem witness_WaysAreEnabledPoweredAndSwept :
    let r := onW fun w => setSlice w 0 { slice0 with wayRet := 0x8000, wayEn := 0x7FFF }
    let p := onW fun w => setSlice w 0 { slice0 with wpmS := true, enabled := false, wayEn := 3, wayPwr := 3 }
    let h := onW fun w => setSlice w 0 { slice0 with wayEn := 0x7FFF, wayPwr := 0x7FFF }
    let o := onW fun w => setSlice w 0 { slice0 with wayEn := 0, waySweep := 0x8000 }
    (0xFFFF &&& (getSlice r.work 0).wayRet ≠ 0) ∧ dirtyLines (getSlice p.work 0) 2 = 0 ∧
    after (exec (.wayenWrite .basecamp 0xFFFF) r) (fun t => (getSlice t.work 0).refused && (getSlice t.work 0).wayEn = 0x7FFF) = true ∧
    after (exec (.wayenWrite .basecamp 1) p) (fun t => (getSlice t.work 0).wayEn = 1 && (getSlice t.work 0).wayPwr = 3) = true ∧
    after (exec (.wayenWrite .basecamp 0xFFFE) h) (fun t => (getSlice t.work 0).wayEn = 0xFFFE && (getSlice t.work 0).waySweep = 0x8001 &&
      (getSlice t.work 0).wayPwr = 0xFFFF) = true ∧
    after (exec (.wayenWrite .basecamp 1) (onW fun w => setSlice w 0 { slice0 with enabled := false })) (fun t =>
      (getSlice t.work 0).wayEn = 1 && (getSlice t.work 0).waySweep = 0xFFFE) = true ∧
    after (exec (.waypwrWrite .basecamp 7) p) (fun t => (getSlice t.work 0).wayPwr = 7 && (getSlice t.work 0).wayEn = 3) = true ∧
    (sweepWays o.work 0 (BitVec.ofNat 16 (2 ^ 15))).hold = none ∧
    after (exec (.waySweepDone 0 15) o) (fun t => (getSlice t.work 0).waySweep = 0 && (getSlice t.work 0).wayPwr = 0x7FFF) = true := by
  decide +kernel

theorem witness_SlicesAreEnabledDisabledAndSpared :
    let off := onW fun w => setSlice w 0 { slice0 with enabled := false, wayPwr := 0 }
    let on := onW fun w => setSlice w 0 slice0
    let s := onW fun w => setSlice w 0 { slice0 with sweep := true }
    let ue := fun (s : State) => { s with misc := { s.misc with bankUe := [bankKey 0 31 19] } }
    let ce := fun (n : Nat) => { on with misc := { on.misc with bankTimes := List.replicate n (bankKey 0 31 19, 0) } }
    let u := ue (onW fun w => setSlice w 0 { slice0 with grpMap := [(31, 4)] })
    winUnit on (bankNo .basecamp) 2 = some 0 ∧ (sweepWays s.work 0 (BitVec.allOnes 16)).hold = none ∧
    after (exec (.sliceEnable .basecamp) off) (fun t => (getSlice t.work 0).enabled && (getSlice t.work 0).waySweep = 0xFFFF) = true ∧
    after (exec (.sliceDisable .basecamp false) on) (fun t => (getSlice t.work 0).enabled && (getSlice t.work 0).sweep) = true ∧
    after (exec (.sliceSweepDone 0) s) (fun t => !(getSlice t.work 0).enabled && !(getSlice t.work 0).sweep) = true ∧
    Tab.get grpD (getSlice on.work 0).grpMap 31 = 0x1F ∧ Tab.get grpD (getSlice u.work 0).grpMap 31 ≠ 0x1F ∧
    bankFails on (bankKey 0 31 19) = false ∧ bankFails (ue on) (bankKey 0 31 19) = true ∧ bankFails u (bankKey 0 31 19) = true ∧
    od on.work 0x6027 = 64 ∧ bankFails (ce 63) (bankKey 0 31 19) = false ∧ bankFails (ce 64) (bankKey 0 31 19) = true ∧
    after (exec (.bankSpare 0 31 19) on) (fun t => (getSlice t.work 0).grpMap = [] && kinds t = []) = true ∧
    after (exec (.bankSpare 0 31 19) (ue on)) (fun t => (getSlice t.work 0).grpMap = [(31, 19)] && t.misc.bankUsed = [(1, 1)] && kinds t = [0x34]) = true ∧
    after (exec (.bankSpare 0 31 19) u) (fun t => (getSlice t.work 0).wayRet = 0x8000 && kinds t = [0x35]) = true := by decide +kernel

/-! ## The memory channels -/

theorem witness_ChannelReadsDeliverAndCount_clean :
    let r := eccRead (showErrs base.work 23 0x2000000 []) 23 0x2000000
    (getCh base.work 23).state = 2 ∧ paOf base.work 23 0x2000000 = some (23 / 4 * 0x2000000000 + (23 % 4) * 4096 + 0x2000 * 4096 * 4) ∧
    r.ue = false ∧ r.fix0 = [] ∧ r.fix1 = [] ∧
    after (exec (.dramRead 23 0x2000000 []) base) (fun t => t.work.out.length = 1 && (getCh t.work 23).ce = 0 &&
      Tab.get (bvD 64) (getTen t.work 0).dram 2 = 128) = true ∧
    after (exec (.patrolScrub 23 0x2000000 []) base) (fun t => t.work.out = [] && Tab.get (bvD 64) (getTen t.work 0).dram 3 = 128) = true := by
  decide +kernel

/-- Nine symbols of one codeword in error. -/
def nineErrs : List (Nat × Byte) := (List.range 9).map fun k => (3 * k, BitVec.ofNat 8 (k + 1))

theorem witness_ChannelReadsDeliverAndCount_uncorrectable :
    (eccRead (showErrs base.work 23 0x2000000 nineErrs) 23 0x2000000).ue = true ∧
    after (exec (.patrolScrub 23 0x2000000 nineErrs) base) (fun t => (getCh t.work 23).ue = 1 && t.work.out = []) = true := by decide +kernel

/-- One symbol in error is corrected, and a scrub writes the block back. -/
theorem witness_ChannelReadsDeliverAndCount_corrected :
    let r := eccRead (showErrs base.work 23 0x2000000 [(7, 0x55)]) 23 0x2000000
    r.ue = false ∧ r.fix0 ++ r.fix1 ≠ [] ∧ r.data = zeros 128 ∧
    after (exec (.patrolScrub 23 0x2000000 [(7, 0x55)]) base) (fun t => errsAt t.work 23 0x2000000 = [] && t.work.dram = [] &&
      (getCh t.work 23).ce ≠ 0) = true := by
  decide +kernel

/-- Row 5000 of channel 2 failed and is held. -/
def rowHeldState : State :=
  onW fun w => setCh w 2 { MemCh.reset with state := 2, trained := true, rowsHeld := [⟨5000, 7, [], true⟩] }

theorem witness_RemappedRowsReadAsBefore :
    let s := rowHeldState
    (getCh s.work 2).rowsHeld = ⟨5000, 7, [], true⟩ :: [] ∧ freeSpare (getCh s.work 2) = some 0 ∧ entryOf (getCh s.work 2) 5000 = none ∧
    freeEntry (getCh s.work 2) = some 0 := by decide +kernel

theorem witness_ChannelsRetrain :
    let on := onW fun w => setCh w 0 { MemCh.reset with state := 2, trained := true, trainTemp := 40 }
    let off := onW fun w => setCh w 0 { MemCh.reset with state := 4 }
    let due := onW fun w => { (setCh w 0 { MemCh.reset with state := 2, trained := true, due := true }) with now := 0xFFFFFFFFF }
    let run := onW fun w => setCh w 0 { MemCh.reset with state := 3, trained := true, retrain := true, temp := 61 }
    winUnit on (bankNo .basecamp) 1 = some 0 ∧ retrainPlanned due 0 = false ∧
    (getCh due.work 0).dueSince.toNat + od due.work 0x2345 ≤ due.work.now.toNat ∧ (getCh run.work 0).pprQueue = [] ∧
    after (exec (.retrain .basecamp) off) (fun t => (getCh t.work 0).refused) = true ∧
    after (exec (.retrain .basecamp) on) (fun t => (getCh t.work 0).state = 3 && (getCh t.work 0).retrain) = true ∧
    after (exec (.emergencyRetrain 0) due) (fun t => (getCh t.work 0).emerg && kinds t = [0x43]) = true ∧
    after (exec (.retrainDone 0 true) run) (fun t => (getCh t.work 0).state = 2 && (getCh t.work 0).trainTemp = 61) = true ∧
    after (exec (.retrainDone 0 false) run) (fun t => (getCh t.work 0).state = 5 && kinds t = [0x44]) = true ∧
    after (exec (.retrainDue 0 (40 + od on.work 0x2346)) on) (fun t => !(getCh t.work 0).due) = true ∧
    after (exec (.retrainDue 0 (41 + od on.work 0x2346)) on) (fun t => (getCh t.work 0).due) = true := by decide +kernel

theorem witness_ChannelsOfflineMarksRepairAndTest :
    let stop := onW fun w => { w with dstate := .stopped }
    let off := onW fun w => setCh w 0 { MemCh.reset with state := 4, trained := true }
    let e : Remap := { valid := true, pending := true, row := 5000, spare := 9, dev := 2, remaps := 1 }
    let pend := onW fun w => setCh w 0 { MemCh.reset with state := 2, remaps := [(3, e)], spareUsed := [9] }
    let rep := onW fun w => setCh w 0 { MemCh.reset with state := 3, remaps := [(3, e)], spareUsed := [9], pprQueue := [3] }
    after (exec (.offline .basecamp) stop) (fun t => (getCh t.work 0).state = 4) = true ∧
    after (exec (.offline .basecamp) base) (fun t => (getCh t.work 0).refused) = true ∧
    after (exec (.online .basecamp) off) (fun t => (getCh t.work 0).state = 2) = true ∧
    markOf (getCh base.work 0) 1 = 7 ∧ after (exec (.mark .basecamp 1 4) base) (fun t => markOf (getCh t.work 0) 1 = 4) = true ∧
    after (exec (.unmark .basecamp 1) (onW fun w => setCh w 0 { MemCh.reset with mark := [(1, 4)] })) (fun t => (getCh t.work 0).mark = []) = true ∧
    after (exec (.ppr .basecamp) pend) (fun t => (getCh t.work 0).pprQueue = [3] && (getCh t.work 0).state = 3) = true ∧
    3 ∈ (getCh rep.work 0).pprQueue := by decide +kernel

theorem witness_ChannelsOfflineMarksRepairAndTest_generator :
    let off := onW fun w => setCh w 0 { MemCh.reset with state := 4, tgCount := 5 }
    let busy := onW fun w => setCh w 0 { MemCh.reset with state := 4, tgBusy := true, tgCtrl := 0x40, tgLen := 1, tgBase := 0x2000000 }
    after (exec (.tgGo .basecamp 0x41) off) (fun t => (getCh t.work 0).tgBusy && (getCh t.work 0).tgCount = 0) = true ∧
    after (exec (.tgGo .basecamp 0x41) base) (fun t => !(getCh t.work 0).tgBusy && (getCh t.work 0).tgRefused) = true ∧
    fld (getCh busy.work 0).tgCtrl 6 2 = 1 ∧
    after (exec (.tgDone 0 []) busy) (fun t => !(getCh t.work 0).tgBusy && (getCh t.work 0).tgDone && (getCh t.work 0).tgCount = 1) = true := by
  decide +kernel

/-! ## Update Units -/

/-- An EUPD.ADD of 1.0 to every element of row 3 of the table of table8, whose op waits for it in Crag 5. -/
def upd0 : Upd :=
  { crag := 5, op := 0, opc := 0x79, ten := 0, dirEnt := BitVec.ofNat 512 (leNat table8), idx := 3,
    row := List.replicate 8 0x3F800000, hyp := [], dest := 0, rnd := false, epoch := 0, rstream := 0, seed := 0 }

def updState : State := onW fun w => { setUpd (setCrag w 5 { Crag.reset with
  ops := [{ op 0 eupdPkt with stage := .acking, acks := 1 }] }) 7 { UpdUnit.reset with queue := [upd0] } with ptlb := [(23, [tlb512])] }

theorem witness_UpdatesApplyAndMigrationsMoveRows_apply :
    let r := vRead updState.work (.upd 7) (updReq 0) 0x40001060 (eSlot upd0.dirEnt)
    r.2 = (zeros 32, false, none) ∧ (vWrite r.1 (.upd 7) (updReq 0) 0x40001060 (updSlot upd0 (zeros 32)) false).2 = none ∧
    updRuns updState.work = true ∧ migOf (getUpd updState.work 7) upd0 = none ∧ eFwd upd0.dirEnt = false ∧
    homeSlot upd0.dirEnt upd0.idx = 0x40001060 ∧
    after (exec (.updateUnitApply 7) updState) (fun t => (getUpd t.work 7).queue = [] && (getUpd t.work 7).rowsDone = 1 &&
      stageOf t = some .done && countOf t = some 1) = true := by decide +kernel

/-- A migration of row 3 to 0x40003000. -/
def mig0 (phase state : Nat) : Mig :=
  { crag := 5, op := 0, ten := 0, row := 3, dirEnt := BitVec.ofNat 512 (leNat (img 64 [(0, 0x40001000), (50, 1), (56, 1), (64, 1),
      (72, 4), (120, 4), (304, 0x40002000)])),
    bucketAt := 0x40002000, dst := 0x40003000, srcAt := 0x40001060, state := state, phase := phase, held := [] }

def migState (phase state : Nat) : State := onW fun w =>
  { setUpd w 7 { UpdUnit.reset with migs := [mig0 phase state] } with ptlb := [(23, [tlb512])] }

theorem witness_UpdatesApplyAndMigrationsMoveRows_migrate :
    (getUpd (migState 0 1).work 7).migs = [mig0 0 1] ∧ updRuns (migState 0 1).work = true ∧ updRuns (migState 1 1).work = true ∧
    after (exec (.migrateClaimAck 7 3) (migState 0 1)) (fun t => (getUpd t.work 7).migs = [mig0 1 1]) = true ∧
    after (exec (.migrateCopyAck 7 3) (migState 1 1)) (fun t => (getUpd t.work 7).migs = [mig0 2 1]) = true ∧
    after (exec (.migrateSwitchAck 7 3) (migState 2 1)) (fun t => (getUpd t.work 7).migs = []) = true := by decide +kernel

/-! ## Installation Time and events -/

def master0 : PtpMaster :=
  { priority1 := 1, clockClass := 6, accuracy := 0, variance := 0, priority2 := 1, identity := 77, steps := 0 }

theorem witness_OffsetsSlewStepOrDiverge_sources :
    let s := onIt 1 fun x => { x with state := .acquiring, refSec := some 2, refNew := true }
    let g := onIt 1 fun x => { x with state := .acquiring, refSec := some 2, edgeAge := 30000001 }
    let p := onIt 2 fun x => { x with state := .acquiring, ptpMaster := some master0, ptpT1 := some 20 }
    itSource s = 1 ∧ s.it.refSec = some 2 ∧ fromMaster p 77 = true ∧ p.it.ptpT1 = some 20 ∧
    after (exec (.ref1ppsEdge true 5) s) (fun t => t.it.offset = 2000000005 && t.it.refSec = some 2) = true ∧
    after (exec (.ref1ppsEdge true 5) g) (fun t => t.it.offset = 5000000005 && t.it.refSec = some 5) = true ∧
    after (exec (.ptpSync 77 (od p.work 0x800B) false 60 20) p) (fun t => t.it.offset = 40 && t.it.good = 1) = true ∧
    after (exec (.ptpSync 77 (od p.work 0x800B) true 0 31) p) (fun t => t.it.ptpT1 = some 31) = true ∧
    after (exec (.ptpFollowUp 77 70) p) (fun t => t.it.offset = 50) = true := by decide +kernel

theorem witness_OffsetsSlewStepOrDiverge_corrections :
    let l := onIt 1 fun x => { x with state := .locked }
    let a := fun g => onIt 1 fun x => { x with state := .acquiring, good := g }
    let lim := slewLimit l
    (lim.natAbs ≤ lim.natAbs ∧ (Machine.measure l lim).it.slew = lim * 1000) ∧
    (lim < lim + 1 ∧ (Machine.measure l (lim + 1)).work.now.toNat = ((lim + 1) / 100).toNat) ∧
    (-(lim + 1) < -lim ∧ (Machine.measure l (-(lim + 1))).it.state = .diverged ∧ kinds (Machine.measure l (-(lim + 1))) = [0x72]) ∧
    (-lim ≤ (100 : Int) ∧ (Machine.measure (a 15) 100).it.state = .locked ∧ (Machine.measure (a 14) 100).it.state = .acquiring ∧
      (Machine.measure (a 15) 101).it.state = .acquiring) := by decide +kernel

theorem witness_InstallationTimeCommands_states :
    let l := onIt 1 fun x => { x with state := .locked }
    let e := onIt 2 fun x => { x with state := .locked, syncAge := 40000000 }
    let k := onIt 2 fun x => { x with state := .locked, syncAge := 39999999 }
    let h := onIt 1 fun x => { x with state := .holdover, holdFor := od base.work 0x8005 }
    let g := onIt 1 fun x => { x with state := .holdover, holdFor := od base.work 0x8005 - 1 }
    lossHolds l true = true ∧ lossHolds e true = true ∧ lossHolds k true = false ∧
    after (exec .itSourceLost l) (fun t => t.it.state = .holdover && kinds t = [0x70]) = true ∧
    after (exec .itSourceLost e) (fun t => t.it.state = .holdover) = true ∧
    after (exec .itSourceLost k) (fun t => t.it.state = .locked) = true ∧
    od h.work 0x8005 ≤ h.it.holdFor ∧ after (exec .itExpired h) (fun t => t.it.state = .expired && kinds t = [0x71]) = true ∧
    after (exec .itExpired g) (fun t => t.it.state = .holdover) = true := by decide +kernel

theorem witness_InstallationTimeCommands_ptp :
    let p := onIt 2 fun x => { x with state := .acquiring, ptpMaster := some master0, ptpT3 := some 100, ptpLastT1 := 10, ptpLastT2 := 16 }
    fromMaster p 77 = true ∧ itSource p = 2 ∧
    after (exec (.delayReqSend 9) p) (fun t => t.it.ptpT3 = some 9 && t.work.out = [.ptpDelayReq]) = true ∧
    after (exec (.ptpDelayResp 77 108) p) (fun t => t.it.ptpDelay = 7) = true ∧
    after (exec (.ptpAnnounce (od base.work 0x800B) master0) base) (fun t => t.it.ptpMaster = some master0) = true := by decide +kernel

theorem witness_InstallationTimeCommands_software :
    let d := onIt 1 fun x => { x with state := .diverged, offset := -300 }
    let s := { d with work := { d.work with dstate := .stopped, now := 10 } }
    let p := { base with work := { base.work with dstate := .preOp } }
    s.it.state = .diverged ∧ s.work.dstate = .stopped ∧ isStandby s.work = false ∧ s.work.fwding = false ∧
    after (exec (.step .basecamp) s) (fun t => t.it.state = .locked && t.work.now = 7) = true ∧
    after (exec (.step .basecamp) d) (fun t => t.it.state = .diverged) = true ∧
    after (exec (.itrefsecondsWrite .basecamp 9) base) (fun t => t.it.refSec = some 9) = true ∧
    after (exec (.itsourceWrite .basecamp 4) p) (fun t => od t.work 0x8001 = 4 && t.it.state = .acquiring) = true ∧
    after (exec .sysclkReturn (onIt 1 fun x => { x with sysclk := false })) (fun t => t.it.sysclk && t.it.state = .acquiring) = true ∧
    after (exec (.itRegisterLowRead 0x40) (onW fun w => { w with now := 0x700000003 })) (fun t =>
      Tab.get (bvD 32) t.it.lowLatch 0x40 = 7) = true ∧
    base.work.now.toNat % 10000000 < 1000000 ∧ after (exec .timePpsOut base) (fun t => t.it.ppsHigh) = true := by decide +kernel

/-- An entry that posts 3 to Belay 4 at a tick, of tenancy 0, with a period. -/
def evWord (tick action period : Nat) : BitVec 256 :=
  BitVec.ofNat 256 (tick + action * 2 ^ 64 + 4 * 2 ^ 80 + 3 * 2 ^ 96 + period * 2 ^ 128)

theorem witness_EventsAreWrittenAndFire_write :
    selObj base (bankAgent .basecamp).bank 0x8010 = 0 ∧
    ((parseEvent (evWord 10 8 0)).action ≠ 0 ∧ (parseEvent (evWord 10 8 0)).tick.toNat ≤ base.work.now.toNat + 10) ∧
    ¬ ((parseEvent (evWord 11 8 0)).tick.toNat ≤ base.work.now.toNat + 10) ∧ eventReserved (evWord 11 8 0) = false ∧
    after (exec (.eventEntryWrite .basecamp (evWord 10 8 0)) base) (fun t => t.ev.table = []) = true ∧
    after (exec (.eventEntryWrite .basecamp (evWord 11 8 0)) base) (fun t => t.ev.table = [(0, parseEvent (evWord 11 8 0))]) = true := by
  decide +kernel

theorem witness_EventsAreWrittenAndFire_fire :
    let s := fun e => { base with ev := { Events.reset with table := [(4095, e)] }, work := { base.work with now := 100 } }
    eventFirst (s (parseEvent (evWord 100 1 0))) 4095 = true ∧ eventFirst (s (parseEvent (evWord 101 1 0))) 4095 = false ∧
    eventFirst (s (parseEvent (evWord 70 8 20))) 4095 = true ∧
    after (exec (.eventFire 4095) (s (parseEvent (evWord 100 1 0)))) (fun t => t.ev.table = [] && t.ev.snapTick = 100 && t.ev.snapSeq = 1) = true ∧
    after (exec (.eventFire 4095) (s (parseEvent (evWord 70 8 20)))) (fun t => t.work.posts.map (fun p => (p.belay, p.inc)) = [(4, 3)] &&
      (Tab.get evD t.ev.table 4095).tick = 110 && t.ev.missed = 1) = true := by decide +kernel

/-! ## Tenancies and energy -/

/-- Basecamp's bank selects tenancy 3, which takes Spur 1. -/
def tenState (st : Nat) : State := onW fun w =>
  setOd (setOd (setTen w 3 { Ten.reset 3 with state := st }) 0x4000 0 1 3) 0x4003 0 3 2

theorem witness_TenanciesAreEnabledDisabledAndReset :
    let c := { tenState 0 with work := setSummit (tenState 0).work 1 { Summit.reset 1 with state := .running } }
    selObj (tenState 0) (bankAgent .basecamp).bank 0x4000 = 3 ∧ enableOk (tenState 0).work 3 = true ∧ enableOk c.work 3 = false ∧
    after (exec (.tenancyEnable .basecamp) (tenState 0)) (fun t => (getTen t.work 3).state = 1 && tenOfSpur t.work 1 = 3) = true ∧
    after (exec (.tenancyEnable .basecamp) c) (fun t => (getTen t.work 3).state = 0) = true ∧
    after (exec (.tenancyReset .basecamp) (tenState 0)) (fun t => (getTen t.work 3).resets = 0) = true ∧
    after (exec (.tenancyReset .basecamp) (tenState 1)) (fun t => (getTen t.work 3).resets = 1 && (getTen t.work 3).state = 1) = true ∧
    after (exec (.xlateInval .basecamp) (tenState 1)) (fun t => (getTen t.work 3).state = 1) = true := by decide +kernel

/-- Package power in mW at k of 2 to 8: the limit of 680 W lies between those at 5 and 6. -/
def hotPowers : List Nat := [500000, 550000, 600000, 680000, 680001, 700000, 710000]

/-- base a tick before the power limit's next request. -/
def asleep : State := { base with pwr := { base.pwr with limitAt := some 1 }, work := { base.work with now := 10000 } }

/-- Crag 1 in Bivouac, whose budget the others may borrow. -/
def lending : State := onW fun w => setCrag w 1 { Crag.reset with bivouac := true }

theorem witness_EnergyDipsHeatAndRails_energy :
    (∀ k, k < 16 → (getTen base.work k).dramMs = 0) ∧
    after (exec (.energyMeasure 2500 []) base) (fun t => (getTen t.work 0).energy = 2 && (getTen t.work 0).energyFrac = 500 &&
      t.pwr.powerNow = 2500 && t.pwr.pkgEnergy = 2) = true ∧
    powerLimit base.work = 680000 ∧ limitDue base = true ∧ limitDue asleep = false ∧ loansMade base.work = false ∧ loansMade lending.work = true ∧
    after (exec (.powerLimitRequest hotPowers []) base) (fun t => t.pwr.kPower = 5 && kinds t = [0x85] && t.pwr.limitAt = some 0) = true ∧
    after (exec (.powerLimitRequest hotPowers [1, 1, 1, 1, 1, 1, 1]) lending) (fun t => t.pwr.kPower = 8 && kinds t = []) = true ∧
    after (exec (.powerLimitRequest (List.replicate 7 680000) []) base) (fun t => t.pwr.kPower = 8 && kinds t = []) = true ∧
    after (exec (.powerLimitRequest hotPowers []) asleep) (fun t => t.pwr.kPower = asleep.pwr.kPower && kinds t = []) = true := by decide +kernel

theorem witness_EnergyDipsHeatAndRails_rails :
    let d := { base with pwr := { base.pwr with kDip := 4 }, work := { base.work with now := 1060 } }
    let dead := { base with fw := { base.fw with dead := true } }
    base.pwr.railsUp = true ∧ dipOver d 106 = true ∧ dipOver d 107 = false ∧ dipOver d 99 = false ∧ (809 : BitVec 16).toNat < (railLimits 7).1 ∧ basecampUp base = true ∧ basecampUp dead = false ∧
    base.work.crags = [] ∧
    after (exec .vddCoreDip base) (fun t => t.pwr.kDip = 4) = true ∧
    after (exec (.dipRecovery 106) d) (fun t => t.pwr.kDip = 8 && t.pwr.dips = 1 && t.pwr.dipLast = 106 && kinds t = [0x80]) = true ∧
    after (exec (.dipRecovery 107) d) (fun t => t.pwr.kDip = 4 && kinds t = []) = true ∧
    after (exec (.railWarnEnd 8 3) base) (fun t => kinds t = [0x80]) = true ∧ after (exec (.railWarnEnd 7 3) base) (fun t => kinds t = []) = true ∧
    after (exec (.supplyFail 7 809) base) (fun t => kinds t = [0x81] && !t.pwr.railsUp) = true ∧
    after (exec (.supplyFail 7 810) base) (fun t => kinds t = []) = true ∧
    after (exec (.supplyFail 23 1619) dead) (fun t => kinds t = [0x81] && t.pwr.railsUp && t.pwr.offDue) = true := by decide +kernel

theorem witness_EnergyDipsHeatAndRails_heat :
    let h := { base with pwr := { base.pwr with thermMs := 9, kTherm := 3, warnArmed := false } }
    let o := { base with pwr := { base.pwr with tripLeft := some 0 } }
    let n := { base with pwr := { base.pwr with tripLeft := some 1 } }
    base.pwr.thermMs < 9 ∧ base.pwr.tripN = false ∧ tripOver o = true ∧ tripOver n = false ∧
    after (exec (.thermalRead [94]) base) (fun t => t.pwr.hottest = 94 && kinds t = []) = true ∧
    after (exec (.thermalRead [95]) base) (fun t => kinds t = [0x82]) = true ∧
    after (exec (.thermalRead [105]) h) (fun t => t.pwr.kTherm = 2 && t.pwr.throttled) = true ∧
    after (exec (.thermalRead [20, 115]) base) (fun t => t.pwr.tripN && !t.pwr.railsUp && t.pwr.tripLeft = some 600000000 && (t.work.faultQ.map fun m => m.src) = [srcTherm 1, srcTherm 1]) = true ∧
    after (exec .tripHoldoffExpiry o) (fun t => t.pwr.tripLeft = none) = true ∧
    after (exec .tripHoldoffExpiry n) (fun t => t.pwr.tripLeft = some 1) = true := by decide +kernel

/-! ## Resets and bring-up -/

theorem witness_ResetsAndBringUp_resets :
    let h := { base with work := setOd base.work 0x7031 0 0 1 }
    od base.work 0x7031 = 0 ∧ od h.work 0x7031 ≠ 0 ∧ (loseHost h.work).hold = none ∧ base.pwr.perst = false ∧ State.reset.pwr.perst = true ∧
    after (exec .rstN base) (fun t => t.work.dstate = .init && t.pwr.resetCause = 1 && t.fc.first = none) = true ∧
    after (exec .por base) (fun t => t.work.dstate = .init && t.pwr.resetCause = 0) = true ∧
    after (exec .sysclkLoss base) (fun t => t.work.dstate = .init && t.pwr.resetCause = 4 && !t.it.sysclk) = true ∧
    after (exec .perstAssert base) (fun t => t.work.dstate = .init && t.pwr.resetCause = 2 && t.pwr.perst) = true ∧
    after (exec .perstAssert h) (fun t => t.work.dstate = .run && !t.host.pcieUp && t.work.hostGone) = true ∧
    after (exec .perstDeassert State.reset) (fun t => !t.pwr.perst && t.host.pcieSt = 1) = true := by decide +kernel

/-- Every test passed, both slots valid. -/
def allGood : BringUpIn :=
  { rstHigh := true, seat := false, testMode := false, railsOk := true, pllOk := true, ridgeOk := true, fatalInInit := false, failedCrags := [], failedSpares := [], failedSummits := [],
    failedChannels := [], failedBanks := [], slotAValid := true, slotBValid := true }

theorem witness_ResetsAndBringUp_bringUp :
    let s := { State.reset with pwr := { Power.reset with bootDue := false }, fw := { Firmware.reset with booted := true } }
    bringUpMay s = true ∧ s.fw.recovery = false ∧ s.cfg.phase = 0 ∧ s.work.faultQ = [] ∧ railsMay s allGood = true ∧
    bringUpFails (loadVals s.work s.cfg.actVals) allGood = false ∧ s.work.crags = [] ∧ od (loadVals s.work s.cfg.actVals) 0x2330 = 1 ∧
    after (exec (.bringUp allGood) s) (fun t => t.work.dstate = .preOp && t.pwr.railsUp && (getCh t.work 23).state = 2 &&
      (getSlice t.work 3).enabled) = true := by decide +kernel

/-! ## Messages -/

/-- A message of one read of four bytes of object 1000h, sub 1, with a SEQ. -/
def readMsg (seq : Nat) : List Byte :=
  natLe 2 0x4F44 ++ natLe 1 1 ++ natLe 1 0 ++ natLe 2 1 ++ natLe 2 28 ++ natLe 8 seq ++
    natLe 2 0x1000 ++ natLe 1 1 ++ natLe 1 1 ++ natLe 4 0 ++ natLe 2 4 ++ natLe 2 0

/-- base with a message in mailbox 0. -/
def boxed (bs : List Byte) : State := setBox base 0 { (getBox base 0) with data := Mem.write [] 0x100 bs }

theorem test_message_layout :
    parseMsg 1200 true (readMsg 5) = some { stop := false, seq := 5, ops := [⟨0x1000, 1, false, 0, 4, []⟩] } ∧
    parseMsg 1200 true (readMsg 5 ++ [0]) = none ∧ parseMsg 27 true (readMsg 5) = none ∧ parseMsg 1200 true (0 :: (readMsg 5).drop 1) = none := by
  decide +kernel

theorem witness_MessagesAreAnswered_mailbox :
    let bytes := fun s => Mem.read (getBox s 0).data 0x100 3840
    hostReach base = true ∧ (getBox base 0).busy = false ∧ base.fw.dead = false ∧ parseMsg 3840 false (bytes base) = none ∧
    hostReach (boxed (readMsg 5)) = true ∧ (getBox (boxed (readMsg 5)) 0).busy = false ∧
    (parseMsg 3840 false (bytes (boxed (readMsg 5)))).isSome = true ∧
    (performMsg (boxed (readMsg 5)) .mailbox { stop := false, seq := 5, ops := [⟨0x1000, 1, false, 0, 4, []⟩] } (readMsg 5)).1.work.hold = none := by
  decide +kernel

/-- base served at its management port, with a key in force. -/
def keyed : State := { base with work := setOd base.work 0x1100 0 0 1, misc := { base.misc with mgmtKeyId := 1, mgmtKey := [1] } }

theorem witness_MessagesAreAnswered_datagram :
    mgmtServed keyed = true ∧ base.misc.mgmtKeyId = 0 ∧ keyed.misc.mgmtKeyId ≠ 0 ∧
    (parseMsg 1200 true (readMsg 5)).map (·.seq) = some 5 ∧ keyed.fw.busy = false ∧ keyed.misc.mgmtLastSeq.toNat < (5 : W64).toNat ∧
    od keyed.work 0x1102 = (5440 : BitVec 16).toNat ∧ mgmtHeld keyed.work < 16 ∧
    (performMsg { keyed with misc := { keyed.misc with mgmtLastSeq := 5 } } .mgmt { stop := false, seq := 5, ops := [⟨0x1000, 1, false, 0, 4, []⟩] }
      (readMsg 5)).1.work.hold = none ∧
    after (exec (.mgmtDatagram { dport := 5441, addr := 0, port := 0, msg := readMsg 5, tag := [] }) keyed) (fun t => t.misc.mgmtAuthFail = 0) = true := by
  decide +kernel

theorem witness_MessagesAreAnswered_tag (key msg : List Byte) :
    ({ dport := 5440, addr := 0, port := 0, msg := msg, tag := hmac256 key msg } : Datagram).tag = hmac256 key msg := rfl

/-! ## Versions and firmware -/

theorem witness_VersionsAndFirmware_versions :
    let c := { base with cfg := { base.cfg with phase := 1, highest := 4 } }
    let p := { base with cfg := { base.cfg with phase := 3, active := 4, previous := 3 } }
    let d := fun tick role => { duo (fun t => { t with role := role }) with
      ev := { base.ev with table := [(0, { parseEvent 0 with action := 5, tick := tick })] } }
    let f := ropeFrame 10 2 { frame 10 0 with addr := 1 }
    c.cfg.phase = 1 ∧ p.cfg.phase = 3 ∧ p.cfg.probEnd.toNat ≤ p.work.now.toNat ∧ p.work.duplex = false ∧
    cfgActivateTicks (d 100000 1) 100000 = some 100000 ∧ cfgActivateTicks (d 10000 1) 10000 = some 10000 ∧
    flashFull c = false ∧ reservedFrame 8 10 f = false ∧ cfgActivateTicks (d 10001 1) 10000 = none ∧ (d 10000 1).twin.role = 1 ∧ (d 9 2).twin.role = 2 ∧
    after (exec (.commitDone true) c) (fun t => t.cfg.pending = 5 && t.cfg.highest = 5) = true ∧
    after (exec (.commitDone false) c) (fun t => t.cfg.highest = 4 && t.cfg.phase = 0) = true ∧
    after (exec .probationEnd p) (fun t => t.cfg.active = 3 && t.cfg.rbVersion = 4 && t.cfg.rbCause = 1) = true ∧
    isHeard (d 9 2) (.cfgDecision f) 8 (ropeIn 10 2 f) = true ∧
    after (exec .cfgDecisionDue (d 10000 1)) (fun t => t.cfg.decision = some (1, 10000)) = true ∧
    after (exec (.cfgDecision f) (d 9 2)) (fun t => t.cfg.decision = some (1, 9)) = true := by
  decide +kernel

theorem witness_VersionsAndFirmware_firmware :
    let f := { base with fw := { base.fw with trial := true, ver := [(0, 7), (1, 8)] }, work := { base.work with now := 10000000000 } }
    let r := { base with fw := { base.fw with restarts := [1, 2] } }
    let o := { base with pwr := { base.pwr with offDue := true }, fw := { base.fw with busy := true } }
    f.fw.trialStart.toNat + od f.work 0x1405 ≤ f.work.now.toNat ∧ slotValid f.fw (1 - f.fw.slot) = true ∧ o.pwr.railsUp = true ∧ o.fw.recovery = false ∧
    after (exec .basecampReturn o) (fun t => !t.fw.busy && !t.pwr.railsUp && !t.pwr.offDue) = true ∧
    after (exec .basecampReturn { base with fw := { base.fw with busy := true } }) (fun t => !t.fw.busy && t.pwr.railsUp) = true ∧
    base.fw.dead = false ∧ base.fw.busy = false ∧ base.fw.restarts = [] ∧
    base.work.now.toNat < (1 : W64).toNat + 6000000000 ∧ base.work.now.toNat < (2 : W64).toNat + 6000000000 ∧
    after (exec .fwTrialExpiry f) (fun t => t.fw.busy && t.fw.slot = 1 && !t.fw.trial && t.fw.status = 5) = true ∧
    after (exec .sentinelWatchdogMiss base) (fun t => t.fw.busy && !t.fw.dead && kinds t = [0x75]) = true ∧
    after (exec .sentinelWatchdogMiss r) (fun t => t.fw.dead && kinds t = [0x75, 0x76]) = true := by decide +kernel

/-! ## The host port -/

theorem witness_HostPortCommands_bar2 :
    let pa := bar2At base.host + 0x1000
    base.work.hold = none ∧ behind base.work (.bar2Read 0x1000 4) = false ∧ behind base.work (.bar2Write 0x1000 [1, 2, 3, 4] false) = false ∧
    bar2Open base 0x1000 4 = true ∧ bar2Open base (2 ^ 30) 4 = false ∧ base.work.bar2Acks = 0 ∧
    hostReach base = true ∧ isStandby base.work = false ∧ base.work.fwding = false ∧
    (readPa base.work (reqPort 2 0) pa 4).1.hold = none ∧ (writePa base.work (reqPort 2 0) pa [1, 2, 3, 4] false).hold = none ∧
    after (exec (.bar2Write 0x1000 [1, 2, 3, 4] false) base) (fun t => t.work.bar2Acks = 1 && decide (t.host = base.host)) = true := by
  decide +kernel

/-- base with tenancy 3 ACTIVE, its doorbell enabled, and Belay 4 its own. -/
def rung : State :=
  let w := setOd (setOd base.work 0x4006 0 3 4) 0x4007 0 3 8
  { base with work := setTen w 3 { Ten.reset 3 with state := 1 }, host := { base.host with dbEnable := 8 } }

theorem witness_HostPortCommands_doorbell :
    rung.work.hold = none ∧ rung.host.d3hot = false ∧ isStandby rung.work = false ∧ rung.work.fwding = false ∧ hostReach rung = true ∧ rung.work.dstate = .run ∧ bit rung.host.dbEnable 3 = true ∧
    (getTen rung.work 3).state = 1 ∧ mayBelay rung.work 3 33 4 = true ∧ rung.work.bar2Acks = 0 ∧ (getTen base.work 3).state ≠ 1 ∧
    after (exec (.dbRing 3 (4 + 5 * 2 ^ 16)) rung) (fun t => t.work.posts.map (fun p => (p.belay, p.inc)) = [(4, 5)]) = true ∧
    after (exec (.dbRing 3 (4 + 5 * 2 ^ 16)) base) (fun t => (getBox t 4).dbDiscarded) = true := by decide +kernel

theorem witness_HostPortCommands_link :
    let r := { base with work := { base.work with dstate := .init } }
    base.pwr.railsUp = true ∧ base.it.sysclk = true ∧ base.host.pcieUp = true ∧ (loseHost (raise base.work srcPcie 0x5B 0 0)).hold = none ∧ base.pwr.perst = false ∧
    cfgRetry base = false ∧ cfgRetry r = true ∧
    after (exec .pcieLinkDown base) (fun t => !t.host.pcieUp && t.host.pcieSt = 3 && kinds t = [0x5B]) = true ∧
    after (exec (.pcieLinkUp 16 5) base) (fun t => t.host.pcieSt = 2) = true ∧
    after (exec (.configurationRequest true 4095 [9] 0) base) (fun t => t.work.out = [.completion [] false]) = true ∧
    after (exec (.configurationRequest false 0 [] 4) r) (fun t => t.work.out = [.crs]) = true := by decide +kernel

/-! ## Traverse and the Rope -/

/-- base with port 0 up, tenancy 0 ACTIVE, page 512 in the port's cache of translations, an import entry of rights, and a route to this
device by port 0. -/
def ported (rights : Nat) : State := onW fun w =>
  let w := setPort w 0 (upPort (getPort w 0))
  let w := setOd (setOd (setOd w 0x4007 0 0 8) 0x1302 0 0 0x40000000) 0x1306 0 0 (2 ^ 47 + rights)
  { setTen w 0 { Ten.reset 0 with state := 1 } with ptlb := [(0, [tlb512])], routes := [(devId w, 2 ^ 53 + 2 ^ 48)] }

theorem witness_TraverseRequestsAndResponses_requests :
    let s := ported (2 ^ 36 + 2 ^ 44 + 2 ^ 45 + 2 ^ 46)
    let r := good { frame 1 0 with srcTen := 1 }
    isHeard s (.write 0 (frame 1 0x40000000)) 0 (frame 1 0x40000000) = true ∧ isHeard s (.post 0 (frame 3 7)) 0 (frame 3 7) = true ∧
    isHeard (ported 0) (.write 0 r) 0 r = true ∧ (frame 1 0x40000010).loc = false ∧ (frame 1 0x40000010).hop = (frame 1 0x40000010).nhops ∧
    (frame 1 0).dst.toNat = devId s.work ∧ silenced s.work = false ∧ s.work.fwding = false ∧
    importEntry ((ported 0).work.took 0 r) r = none ∧ (respond ((ported 0).work.took 0 r) 0 r stRefused [] 0).hold = none ∧
    (importEntry s.work (frame 1 0)).map (fun e => (bitsN e 40 4, bitsN e 45 1, bitsN e 44 1, bitsN e 46 1)) = some (0, 1, 1, 1) ∧
    (getTen s.work 0).state = 1 ∧ mayBelay s.work 0 33 7 = true ∧ (frame 2 0x40000010).addr.toNat / 16 % 4 = 1 ∧
    (vWrite s.work (.port 0) (reqPort 2 0) 0x40000000 (zeros 128) false).2 = none ∧
    after (exec (.write 0 r) (ported 0)) (fun t => match t.work.out with
      | .frame 0 g :: _ => decide (g.typ = 5 ∧ g.status = stRefused)
      | _ => false) = true ∧
    after (exec (.write 0 { frame 1 0x40000000 with crc := 0 }) s) (fun t => (getPort t.work 0).crcErr = 1 && (getPort t.work 0).asking &&
      t.work.out.length = 1 && (peekBlock t.work 0x40000000).1.take 2 = [0, 0]) = true ∧
    after (exec (.write 0 (frame 1 0x40000000)) s) (fun t => t.work.hold = none && (peekBlock t.work 0x40000000).1.take 2 = [1, 2]) = true ∧
    after (exec (.post 0 (frame 3 7)) s) (fun t => t.work.posts.map (fun p => p.belay) = [7]) = true := by
  decide +kernel

theorem witness_TraverseRequestsAndResponses_read :
    let s := ported (2 ^ 36 + 2 ^ 44)
    let r := vRead s.work (.port 0) (reqPort 2 0) 0x40000000 128
    let f := good { frame 2 0x40000010 with len := 0 }
    r.2.2.2 = none ∧ r.2.1 = zeros 128 ∧ r.1.hold = none ∧ isHeard s (.read 0 f) 0 f = true ∧
    after (exec (.read 0 f) s) (fun t => match t.work.out with
      | .frame 0 g :: _ => decide (g.typ = 4 ∧ g.status = 0 ∧ g.payload = zeros 128)
      | _ => false) = true := by
  decide +kernel

/-- A frame of a type that a Traverse port does not carry is discarded and counted, and its credit returned. -/
theorem witness_TraverseRequestsAndResponses_reserved :
    let h := good { frame 9 0 with addr := 7 }
    reservedFrame 0 1 h = true ∧ reservedFrame 0 1 { h with typ := 1, len := 3 } = true ∧ isHeard (ported 0) (.write 0 h) 0 h = true ∧
    after (exec (.write 0 h) (ported 0)) (fun t => (getPort t.work 0).discard = 1 && (getPort t.work 0).rxSeq = 1) = true := by decide +kernel

/-- Port 0 up, and a request of an op of Crag 5 to device 9 that awaits its response with tag 3. -/
def asked (typ : Nat) (o : Op) : State :=
  { onC (fun x => { x with ops := [o] }) with
    work := setPort { (onC fun x => { x with ops := [o] }).work with
      remotes := [{ tag := 3, typ := typ, dev := 9, crag := 5, op := 0, ten := 0, belay := 0, sentAt := 0, gone := false }] } 0
      { getPort base.work 0 with state := 2 } }

theorem witness_TraverseRequestsAndResponses_responses :
    let o := { op 0 (pk [(0, 0x80)]) with stage := .waiting }
    let b := { op 0 (pk [(0, 0x11)]) with stage := .acking, acks := 2 }
    let f := fun typ => good { frame typ 0 with tag := 3 }
    let late := { asked 1 b with work := { (asked 1 b).work with now := 600000001 } }
    (findOp (getCrag (asked 1 b).work 5) 0) = some b ∧ (findOp (getCrag (asked 3 o).work 5) 0) = some o ∧ opcOf o.pkt = 0x80 ∧
    od late.work 0x1304 ≤ late.work.now.toNat ∧ isHeard (asked 1 b) (.writeAck 0 (f 5)) 0 (f 5) = true ∧
    isHeard (asked 3 o) (.postAck 0 (f 6)) 0 (f 6) = true ∧ isHeard (asked 2 o) (.readResp 0 (f 4)) 0 (f 4) = true ∧
    after (exec (.writeAck 0 (f 5)) (asked 1 b)) (fun t => t.work.remotes = [] && (findOp (cr t) 0).map (·.acks) = some 1) = true ∧
    after (exec (.postAck 0 (f 6)) (asked 3 o)) (fun t => (findOp (cr t) 0).map (·.stage) = some .done) = true ∧
    after (exec (.readResp 0 (f 4)) (asked 2 o)) (fun t => t.work.remotes = [] && t.work.hold = none) = true ∧
    after (exec (.travTimeout 3) late) (fun t => kinds t = [0x5F]) = true := by decide +kernel

theorem witness_LinksExchangeTimeAndLoseLanes_time :
    let s := { onPort 2 upPort with work := setOd (onPort 2 upPort).work 0x8007 0 0 4 }
    let q := { onPort 2 (fun x => { upPort x with credit := [] }) with
      work := setOd (onPort 2 fun x => { upPort x with credit := [] }).work 0x8007 0 0 4 }
    let f := good { frame 7 0 with payload := natLe 8 77 ++ zeros 24 }
    let g := good { blankFrame base.work 8 0 with src := 44, loc := true }
    portUp s.work 2 = true ∧ od s.work 0x8007 = 2 ^ 2 ∧ at_ f.payload 28 1 / 2 % 2 = 0 ∧ linkOnly s 2 = false ∧
    168 ≤ (getPort s.work 2).credit.getD 2 0 ∧ (getPort q.work 2).credit.getD 2 0 < 168 ∧ isHeard s (.time 2 f) 2 f = true ∧
    g.lseq = (getPort s.work 2).rxSeq ∧
    after (exec .timeExchangeTimer s) (fun t => match t.work.out with
      | [.frame 2 g] => decide (g.typ = 7)
      | _ => false) = true ∧
    after (exec .timeExchangeTimer q) (fun t => t.work.out = [] && (getPort t.work 2).waitQ.length = 1) = true ∧
    after (exec (.time 2 f) s) (fun t => match t.work.out with
      | .frame 2 g :: _ => decide (at_ g.payload 0 8 = 77)
      | _ => false) = true ∧
    (getPort (linkOp q.work 2 g { credits := [(3, 500)], ack := none, replay := none }) 2).credit.getD 3 0 = 500 ∧
    after (exec (.link 2 g) q) (fun t => (getPort t.work 2).neigh = some 44 && (getPort t.work 2).rxSeq = 1) = true := by
  decide +kernel

/-- R456: a frame is kept until its acknowledgement comes, sent again when a replay is asked for, and gone once it is acknowledged. -/
def sentOne : State := onPort 2 fun x => { upPort x with sent := [good { blankFrame base.work 7 0 with lseq := 9 }], txSeq := 10 }

theorem test_replay_and_acknowledgement :
    let g := good { blankFrame base.work 8 0 with src := 44, loc := true }
    let a := linkOp sentOne.work 2 g { credits := [], ack := some 9, replay := none }
    let r := linkOp sentOne.work 2 g { credits := [], ack := none, replay := some 9 }
    ((getPort a 2).sent = [] ∧ a.out = []) ∧ (getPort r 2).sent.length = 1 ∧ (getPort r 2).replay = 1 ∧
    (r.out.map fun o => match o with | .frame 2 f => f.lseq.toNat | _ => 0) = [9] := by decide +kernel

/-- R457: a frame waits for the credit of its virtual channel, and goes once a LINK frame brings it. -/
theorem test_frames_wait_for_credit :
    let p := { frame 3 7 with crc := 0 }
    let s := onPort 2 fun x => { x with state := 2, waitQ := [p] }
    let g := good { blankFrame base.work 8 0 with src := 44, loc := true }
    let w := linkOp s.work 2 g { credits := [(vcOf 3, 4096)], ack := none, replay := none }
    (getPort w 2).waitQ = [] ∧ (w.out.map fun o => match o with | .frame 2 f => f.typ | _ => 0) = [3] := by decide +kernel

theorem witness_LinksExchangeTimeAndLoseLanes_lanes :
    let x := onPort 7 fun x => { x with state := 2, lanes := 15 }
    let h := onPort 7 fun x => { x with state := 2, lanes := 15, half := true }
    let d := { onPort 7 (fun x => { x with state := 3 }) with work := { (onPort 7 fun x => { x with state := 3 }).work with portsOn := 255 } }
    let n := { onPort 7 (fun x => { x with state := 1, lanes := 0x17 }) with
      work := { (onPort 7 fun x => { x with state := 1, lanes := 0x17 }).work with portsOn := 255 } }
    let c := { onPort 7 (fun x => { x with state := 4 }) with work := { (onPort 7 fun x => { x with state := 4 }).work with portsOn := 255 } }
    let l : RidgeLane := ⟨0, 0, 69, 1⟩
    let g := { base with misc := { base.misc with ridgeGrp := [(ridgeKey l, 1)] } }
    (getPort x.work 7).state = 2 ∧ (getPort x.work 7).lanes.getLsbD 3 = true ∧ (getPort x.work 7).half = false ∧ (getPort x.work 7).spares = 0 ∧
    (getPort h.work 7).half = true ∧ portEnabled d.work 7 = true ∧ linksMay d = true ∧ portEnabled c.work 7 = true ∧ (getPort c.work 7).state = 4 ∧ (getPort d.work 7).state = 3 ∧ (getPort n.work 7).lanes ≠ 0 ∧
    l.wf = true ∧ Tab.get zeroD base.misc.ridgeGrp (ridgeKey l) = 0 ∧ Tab.get zeroD g.misc.ridgeGrp (ridgeKey l) = 1 ∧
    after (exec (.travLaneFail 7 3) x) (fun t => (getPort t.work 7).state = 3 && (getPort t.work 7).spares = 1) = true ∧
    after (exec (.travLaneFail 7 3) h) (fun t => (getPort t.work 7).state = 4 && kinds t = [0x5D]) = true ∧
    after (exec (.travLinkUp 7) d) (fun t => (getPort t.work 7).state = 2) = true ∧
    after (exec (.travLinkUp 7) n) (fun t => (getPort t.work 7).state = 2 && (getPort t.work 7).lanes = 0x17) = true ∧
    after (exec (.ridgeLaneFail l) base) (fun t => kinds t = [0x50]) = true ∧
    after (exec (.ridgeLaneFail l) g) (fun t => kinds t = [0x51]) = true := by decide +kernel

theorem witness_LinksExchangeTimeAndLoseLanes_rope :
    let u := onPort 8 fun x => { x with state := 2, lanes := 0x3FFFF }
    let r := onPort 8 fun x => { x with state := 3 }
    let m := { base with work := setOd base.work 0x8100 0 0 2 }
    ropeFitted base.work = true ∧ linksMay m = true ∧ (getPort u.work 8).lanes.getLsbD 17 = true ∧ (getPort u.work 8).spares < 2 ∧ (getPort u.work 8).state = 2 ∧ (getPort r.work 8).state = 3 ∧
    base.twin.seatConf = false ∧ od m.work 0x8100 = 2 ∧
    after (exec (.ropeLaneFail 17) u) (fun t => (getPort t.work 8).state = 3 && kinds t = [0x60]) = true ∧
    after (exec (.ropeLaneFail 17) { u with work := setPort u.work 8 { getPort u.work 8 with lanes := 0x1FFFF } }) (fun t => kinds t = []) = true ∧
    after (exec .ropeRetrainDone r) (fun t => (getPort t.work 8).state = 2) = true := by decide +kernel

/-! ## Twins -/

/-- A LEASE of a term, role and SEAT. -/
def lease (term role seat : Nat) : Frame :=
  good { frame 9 0 with payload := natLe 8 term ++ [BitVec.ofNat 8 role, BitVec.ofNat 8 seat] }

theorem witness_TwinsLeadAndReact_leases :
    let p := duo fun t => { t with role := 1, term := 4 }
    let n := duo id
    let z := duo fun t => { t with role := 2 }
    let f := ropeFrame 10 8 (frame 10 0)
    p.work.duplex = true ∧ isHeard p (.lease (lease 5 1 1)) 8 (ropeIn 9 0 (lease 5 1 1)) = true ∧
    isHeard p (.ctrlDetach f) 8 (ropeIn 10 8 f) = true ∧ p.work.dstate = .run ∧ silenced p.work = false ∧
    (parseLease (lease 5 1 1)).role = 1 ∧ (parseLease (lease 5 0 1)).role = 0 ∧ p.work.fuses.seat = false ∧ z.twin.role = 2 ∧
    p.twin.term.toNat < (parseLease (lease 5 1 1)).term.toNat ∧ ((lease 5 1 1).typ ≠ 0 ∧ (lease 5 1 1).typ < 14 ∧ (lease 5 1 1).len < 3) ∧
    isHeard n (.lease (lease 5 0 1)) 8 (ropeIn 9 0 (lease 5 0 1)) = true ∧ n.twin.role = 0 ∧
    after (exec .leaseSend { p with work := { p.work with now := 100000 } }) (fun t => t.twin.leaseSent = 100000 && t.work.out.length = 1) = true ∧
    after (exec .leaseSend p) (fun t => t.work.out = []) = true ∧
    after (exec (.lease (lease 5 1 1)) p) (fun t => t.work.dstate = .fenced && t.twin.role = 0) = true ∧
    after (exec (.ctrlDetach f) p) (fun t => t.twin.pair = 2 && t.twin.term = 4) = true := by decide +kernel

/-- A LEASE with the configuration of a device is from a twin of one configuration. -/
theorem witness_TwinsLeadAndReact_sameCfg (s : State) (l : Lease) (h : l.cfg = s.cfg.active) (g : l.digest = cfgDigest s.cfg.actVals) :
    sameCfg s l = true := by simp [sameCfg, h, g]

theorem witness_TwinsLeadAndReact_witness :
    let late := fun (w : Work) => { w with now := 500000 }
    let a := duo (fun t => { t with role := 2 }) fun w => setOd (late w) 0x8105 0 0 2
    let b := duo (fun t => { t with role := 2 }) fun w => setOd (late w) 0x8105 0 0 0
    let q := duo (fun t => { t with role := 2, query := true }) fun w => { w with now := 600000000 }
    a.twin.query = false ∧ a.twin.lastLease.toNat + 500000 ≤ a.work.now.toNat ∧ od a.work 0x8105 = 2 ∧ od b.work 0x8105 = 0 ∧
    q.twin.queryAt.toNat + od q.work 0x8106 ≤ q.work.now.toNat ∧
    after (exec .leaseTimeout a) (fun t => t.twin.query && t.twin.role = 2) = true ∧
    after (exec .leaseTimeout b) (fun t => t.twin.role = 3) = true ∧
    after (exec .witnessWaitExpiry q) (fun t => t.twin.role = 3 && kinds t = [0x65]) = true := by decide +kernel

theorem witness_TwinsLeadAndReact_tenancies :
    let s := duo (fun t => { t with role := 1 }) fun w => { setTen w 3 { Ten.reset 3 with state := 1 } with digests := [(2, 6, 1), (2, 7, 1)] }
    let f := fun typ kind => ropeFrame typ kind { frame 11 2 with payload := natLe 8 6, srcTen := 3 }
    (getTen s.work 3).state = 1 ∧ s.twin.closedAt = [] ∧ (∀ e ∈ s.work.crags, e.2.slots = []) ∧
    (∀ q ∈ s.work.sched.ready ++ s.work.sched.delay, q.ten ≠ 3) ∧ s.work.upds = [] ∧
    isHeard s (.agree (f 10 4)) 8 (ropeIn 10 4 (f 10 4)) = true ∧ isHeard s (.stopTen (f 10 5)) 8 (ropeIn 10 5 (f 10 5)) = true ∧
    isHeard s (.resetTen (f 10 7)) 8 (ropeIn 10 7 (f 10 7)) = true ∧ isHeard s (.digest (f 11 0)) 8 (ropeIn 11 0 (f 11 0)) = true ∧
    after (exec (.agree (f 10 4)) s) (fun t => t.work.digests = [(2, 7, 1)] && Tab.get (bvD 64) t.twin.agreed 2 = 6) = true ∧
    after (exec (.stopTen (f 10 5)) s) (fun t => (getTen t.work 3).preempt) = true ∧
    after (exec (.resetTen (f 10 7)) s) (fun t => (getTen t.work 3).resets = 1) = true ∧
    after (exec (.digest (f 11 0)) s) (fun t => t.twin.rxDig.map (fun d => d.2.1) = [6]) = true := by decide +kernel

/-- A standby whose cache holds pa0's block. -/
def standby0 : State := duo (fun t => { t with role := 2 }) fun w => setSlice w d0 (getSlice hitState.work d0)

theorem witness_TwinsForwardCopyAndTest_blocks :
    let s := standby0
    let c := ropeFrame 13 0 { frame 13 pa0 with payload := [7] }
    let b := ropeFrame 12 2 { frame 12 pa0 with payload := [7] }
    isHeard s (.copy c) 8 (ropeIn 13 0 c) = true ∧ isHeard s (.fwdBar2 b) 8 (ropeIn 12 2 b) = true ∧ s.work.mirror = 0 ∧
    (paStatus s.work pa0 = .ok ∧ hitWay (getSlice s.work (sliceOf pa0)) pa0 = some 15 ∧ fillOf (getSlice s.work (sliceOf pa0)) pa0 = none ∧
      (getSlice s.work (sliceOf pa0)).sweep = false) ∧ b.len = 1 ∧ b.part = false ∧ pa0 % 128 = 0 ∧
    after (exec (.copy c) s) (fun t => (getPort t.work 8).copyBytes = 128 && (peekBlock t.work pa0).1.head? = some 7) = true ∧
    after (exec (.fwdBar2 b) s) (fun t => t.work.bar2Acks = 1 && (peekBlock t.work pa0).1.head? = some 7 && t.work.dram = []) = true := by
  decide +kernel

theorem witness_TwinsForwardCopyAndTest_others :
    let s := standby0
    let o := ropeFrame 12 4 (frame 12 0)
    let r := ropeFrame 12 1 { frame 12 0x3008 with payload := natLe 8 3 ++ natLe 1 4 }
    let d := ropeFrame 12 3 { frame 12 (5 + 2 * 2 ^ 8) with payload := [9] }
    isHeard s (.fwdOdFragment o) 8 (ropeIn 12 4 o) = true ∧ bit o.addr 16 = false ∧ fld o.addr 0 16 = 0 ∧
    isHeard s (.fwdHostRegister r) 8 (ropeIn 12 1 r) = true ∧ fld r.addr 0 16 = 0x3000 + 8 * 1 ∧ at_ r.payload 8 1 = 4 ∧
    isHeard s (.fwdStreamData d) 8 (ropeIn 12 3 d) = true ∧ strmAt s.work 5 (getChan (getCrag s.work 5) 2).op = none ∧
    after (exec (.fwdOdFragment o) s) (fun t => t.twin.odFrag = [1, 2]) = true ∧
    after (exec (.fwdHostRegister r) s) (fun t => selVal t 0 1 = 3) = true ∧
    after (exec (.fwdStreamData d) s) (fun t => t.work.fwdData.map (fun e => (e.1, e.2.1, e.2.2.1.head?)) = [(5, 2, some 9)]) = true := by
  decide +kernel

/-- A standby, and a POST of another device to Belay 7 that its primary forwards. -/
def postTo7 : Frame :=
  ropeFrame 12 5 { frame 12 0 with len := 2, payload := natLe 32 (headerBits { frame 3 7 with inc := 4 }) ++ zeros 96 }

def standbyPorted : State :=
  duo (fun t => { t with role := 2 }) fun w => { (ported (2 ^ 36 + 2 ^ 46)).work with duplex := true, ports := w.ports }

theorem witness_TwinsForwardCopyAndTest_post :
    let s := standbyPorted
    let h := parseHeader (leNat (postTo7.payload.take 32)) (postTo7.payload.drop 128)
    isHeard s (.fwdTraverseRequest postTo7) 8 (ropeIn 12 5 postTo7) = true ∧ h.typ = 3 ∧
    ((importEntry s.work h).map fun e => (bitsN e 46 1, bitsN e 40 4)) = some (1, 0) ∧ (getTen s.work 0).state = 1 ∧
    mayBelay s.work 0 33 (bitsN h.addr.toNat 0 16) = true ∧
    after (exec (.fwdTraverseRequest postTo7) s) (fun t => t.work.posts.map (fun q => (q.belay, q.inc)) = [(7, 4)]) = true := by decide +kernel

theorem witness_TwinsForwardCopyAndTest_tests :
    let c := duo fun t => { t with role := 1, pair := 3, copyAt := 2 ^ 48 }
    let e := duo fun t => { t with role := 1, pair := 3, copyAt := 2 ^ 48 - 256 }
    let b := duo fun t => { t with role := 2, pair := 3 }
    let m := duo (fun t => { t with role := 1, mism := [(3, 1)] }) fun w => { w with now := 10000000 }
    let h := { m with work := setOd (setTen m.work 3 { Ten.reset 3 with state := 1 }) 0x4003 0 3 2 }
    let f := ropeFrame 10 6 { frame 10 1 with srcTen := 3 }
    isHeard m (.selftest f) 8 (ropeIn 10 6 f) = true ∧
    c.twin.pair = 3 ∧ Tab.get zeroD m.twin.mism 3 ≠ 0 ∧ Tab.get testD m.twin.myTest 3 = none ∧ Tab.get testD m.twin.hisTest 3 = none ∧
    Tab.get zeroD m.twin.mism 3 + 10000000 ≤ m.work.now.toNat + 1 ∧
    after (exec .copyDone c) (fun t => t.twin.pair = 1) = true ∧ after (exec .copyDone b) (fun t => t.twin.pair = 1) = true ∧
    after (exec .copyDone e) (fun t => t.twin.pair = 3) = true ∧
    after (exec (.selfTestComplete 3 ⟨[5], [0]⟩) m) (fun t => Tab.get testD t.twin.myTest 3 = some true && t.pwr.selfTest = 0 && t.work.hold = none) = true ∧
    after (exec (.selfTestComplete 3 ⟨[], [1]⟩) h) (fun t => Tab.get testD t.twin.myTest 3 = some false && t.work.withdrawn = 2 &&
      t.pwr.selfTest = 2 ^ 273 && kinds t = [0x0D] && t.work.hold = none) = true ∧
    after (exec (.selftest f) m) (fun t => Tab.get testD t.twin.hisTest 3 = some true) = true ∧
    after (exec (.selftestResultTimeout 3) m) (fun t => Tab.get testD t.twin.hisTest 3 = some false &&
      Tab.get testD t.twin.myTest 3 = some false && Tab.get zeroD t.twin.mism 3 = 0) = true := by decide +kernel

/-! ## Faults, small ports, invariants -/

/-- A message of a class. -/
def fm (src : BitVec 16) (kind cls ten : Nat) : FaultMsg :=
  { src := src, kind := BitVec.ofNat 8 kind, cls := BitVec.ofNat 2 cls, ten := BitVec.ofNat 4 ten, addr := 0, it := 0 }

/-- base with a message held. -/
def holds (m : FaultMsg) : State := onW fun w => { w with faultQ := [m] }

theorem witness_FaultsAreHeldCollectedAndCleared :
    let m := fm srcRope 0x62 0 0
    let r := { base with log := { base.log with openRecs := [{ msg := m, it := 0, rep := 0 }] }, work := { base.work with now := 10000000 } }
    fld m.src 8 5 ≠ 0 ∧ fld m.src 8 5 ≠ 1 ∧ m.kind.toNat ∈ knownKinds ∧ m.kind ≠ 0x25 ∧ base.fc.ceIrq = false ∧ base.work.dstate = .run ∧
    m.kind.toNat ∉ [0x25, 0x30, 0x31, 0x44, 0x5B, 0x5D, 0x61, 0x66, 0x67, 0x77] ∧ (detect base (fm srcRope 0x61 0 0)).work.hold = none ∧
    basecampUp r = true ∧ r.log.openRecs.length = 1 ∧ base.fc.first = none ∧ base.fc.fatalValid = false ∧
    after (exec (.faultMessage (some m)) base) (fun t => kinds t = [0x62]) = true ∧
    after (exec (.faultMessage (some (fm srcRope 0x61 0 0))) (onPort 8 upPort)) (fun t => (getPort t.work 8).state = 4 && kinds t = [0x61]) = true ∧
    after (exec (.faultMessage none) (holds (fm srcRope 0x60 0 0))) (fun t => t.fc.cntCe = 1 && kinds t = [] && t.fc.valid) = true ∧
    after (exec (.faultMessage none) (holds (fm srcPcie 0x5B 1 3))) (fun t => t.fc.cntCt = 1 && (Tab.get tenLastD t.fc.tenLast 3).isSome) = true ∧
    after (exec (.faultMessage none) (holds (fm srcPcie 0x52 2 0))) (fun t => t.fc.fatalValid && t.work.dstate = .stopped && t.work.stopCause = 2) = true ∧
    after (exec (.faultClearValid .host) { base with fc := { base.fc with valid := true, first := some m } }) (fun t => t.fc.first = none && !t.fc.valid) = true ∧
    after (exec .logRecordClose r) (fun t => t.log.openRecs = [] && t.log.next = 1) = true := by decide +kernel

/-- Two messages of one tick wait: that of the lower SRC is taken first, and the other stays with the later one. -/
theorem witness_FaultsAreHeldCollectedAndCleared_order :
    let a := fm srcRope 0x60 0 0
    let b := fm srcPcie 0x58 0 0
    let c := { fm (srcPort 0) 0x5C 0 0 with it := 9 }
    let s := onW fun w => { w with faultQ := [a, b, c] }
    a.it = b.it ∧ b.src.toNat < a.src.toNat ∧ c.it ≠ b.it ∧
    after (exec (.faultMessage none) s) (fun t => t.work.faultQ = [a, c] && t.fc.first = some b) = true := by decide +kernel

theorem witness_FaultsAreHeldCollectedAndCleared_sparing :
    let s := onC fun x => { x with marked := true }
    (getCrag s.work 5).marked = true ∧ cragPresent s.work 5 = true ∧ basecampUp s = true ∧
    (getSummit s.work (leaderOfCrag s.work 5)).state = .reset ∧ (getSummit s.work (leaderOfCrag s.work 5)).runHeld = false ∧
    (sparesLeft s (cragPhys s.work 5 / 256 % 2)).head? = some 128 ∧
    after (exec (.cragSpared 5 []) s) (fun t => cragPhys t.work 5 = 128 && !(cr t).marked && kinds t = [0x0E]) = true := by decide +kernel

theorem witness_SmallPorts :
    let j := { base with misc := { base.misc with jtagIr := .bypass } }
    let a := ownAddrs keyed
    mgmtServed keyed = true ∧ a.length ≠ 0 ∧ base.misc.jtagIr = .idcode ∧ base.fw.dead = false ∧ (List.replicate 32 false).length = 32 ∧
    after (exec (.jtagTapOperation (.scanDr (List.replicate 32 false))) base) (fun t => t.work.out = [.jtag (bitList 32 0x19440001)]) = true ∧
    after (exec (.jtagTapOperation (.scanDr [true, false, true])) j) (fun t => t.work.out = [.jtag [false, true, false]]) = true ∧
    after (exec .pmbusAlert base) (fun t => t.misc.pmbAlert) = true := by decide +kernel

theorem witness_MemoryKeepsItsCanonicalForm : Tab.wf (dramD base.work.lost base.work.lostRows) base.work.dram = true := by decide +kernel

theorem witness_EveryStepKeepsTheCollectorConsistent_reset : base.collectorOk := by
  unfold State.collectorOk Collector.ok
  decide +kernel

theorem witness_EveryStepKeepsTheCollectorConsistent_step :
    after (step { base with pending := [.faultMessage none], work := (holds (fm srcRope 0x60 0 0)).work }) (fun t => t.fc.valid) = true := by
  decide +kernel

end Sys2Proof.Tests
end

section
/-! The queue of commands. -/

namespace Sys2Proof.Proofs
open Sys2Proof.Machine

/-- Settles O1: of the two kinds of step, idling needs an empty queue, and the other one runs the front command. -/
theorem stepRunsTheFrontCommand : Obligations.StepRunsTheFrontCommand := by
  intro s c rest hqueue
  obtain ⟨hempty, -⟩ | ⟨c', rest', hfront, hstep⟩ := step_cases s
  · exact absurd (hqueue.symm.trans hempty) (List.cons_ne_nil c rest)
  · obtain ⟨rfl, rfl⟩ := List.cons.inj (hqueue.symm.trans hfront)
    exact hstep

end Sys2Proof.Proofs
end

section
/-! Integer sums of the fabric. Wrapping to 32 bits is `Int.bmod · (2 ^ 32)`. Every node of the summation tree keeps the exact sum of
its terms modulo 2^32, so the shape of the tree does not show in the wrapped result (R133, R140). -/

namespace Sys2Proof.Proofs
open Sys2Proof.Machine

/-! ## Wrapping -/

/-- The two's complement value of an integer's code is its balanced remainder. -/
theorem toSigned_ofInt (w : Nat) (v : Int) : toSigned w (ofInt w v) = v.bmod (2 ^ w) := by
  have hpos : (0 : Int) < ((2 ^ w : Nat) : Int) := Int.natCast_pos.mpr (Nat.two_pow_pos w)
  have hnonneg := Int.emod_nonneg v (Int.ne_of_gt hpos)
  have hlt := Int.emod_lt_of_pos v hpos
  have hcode : ofInt w v % 2 ^ w = (v % ((2 ^ w : Nat) : Int)).toNat := Nat.mod_eq_of_lt (by unfold ofInt; omega)
  simp only [toSigned, hcode, Int.bmod]
  split <;> split <;> omega

/-- Integers that agree modulo 2^32 wrap to the same value. -/
theorem bmod_eq_of_emod_eq {a b : Int} (h : a % 2 ^ 32 = b % 2 ^ 32) : a.bmod (2 ^ 32) = b.bmod (2 ^ 32) :=
  calc a.bmod (2 ^ 32) = (a % 2 ^ 32).bmod (2 ^ 32) := (Int.emod_bmod a _).symm
    _ = (b % 2 ^ 32).bmod (2 ^ 32) := by rw [h]
    _ = b.bmod (2 ^ 32) := Int.emod_bmod b _

theorem wrapAdd_fst (a b : Int) : (wrapAdd a b).1 = .i ((a + b).bmod (2 ^ 32)) := by
  simp only [wrapAdd]
  split
  case isTrue hrange =>
    obtain ⟨hmin, hmax⟩ := hrange
    rw [Int.bmod_eq_of_le (by unfold i32min at hmin; omega) (by unfold i32max at hmax; omega)]
  case isFalse => rw [toSigned_ofInt]

/-! ## Chunks of a list -/

section Chunks
variable {α β : Type} (n : Nat)

theorem chunksAux_map (f : α → β) (fuel : Nat) (l : List α) :
    chunksAux n fuel (l.map f) = (chunksAux n fuel l).map (List.map f) := by
  induction fuel generalizing l with
  | zero => rfl
  | succ fuel ih =>
    cases l with
    | nil => rfl
    | cons x xs =>
      have hrest := ih ((x :: xs).drop n)
      rw [List.map_drop] at hrest
      simp only [List.map_cons] at hrest
      simp only [chunksAux, List.map_cons, hrest, List.map_take]

theorem chunks_map (f : α → β) (l : List α) : chunks n (l.map f) = (chunks n l).map (List.map f) := by
  unfold chunks
  rw [List.length_map, chunksAux_map]

theorem flatten_chunksAux (hn : 0 < n) (fuel : Nat) (l : List α) (hfuel : l.length ≤ fuel) : (chunksAux n fuel l).flatten = l := by
  induction fuel generalizing l with
  | zero => simp [List.length_eq_zero_iff.mp (Nat.le_zero.mp hfuel), chunksAux]
  | succ fuel ih =>
    cases l with
    | nil => rfl
    | cons x xs =>
      have hrest := ih ((x :: xs).drop n) (by simp only [List.length_drop, List.length_cons] at *; omega)
      rw [chunksAux, List.flatten_cons, hrest, List.take_append_drop]
      simp

theorem flatten_chunks (hn : 0 < n) (l : List α) : (chunks n l).flatten = l :=
  flatten_chunksAux n hn l.length l (Nat.le_refl _)

theorem length_le_of_mem_chunksAux (fuel : Nat) (l : List α) : ∀ c ∈ chunksAux n fuel l, c.length ≤ n := by
  induction fuel generalizing l with
  | zero => simp [chunksAux]
  | succ fuel ih =>
    cases l with
    | nil => simp [chunksAux]
    | cons x xs =>
      intro c hc
      obtain rfl | hc := List.mem_cons.mp hc
      · exact List.length_take_le ..
      · exact ih _ c hc

theorem length_le_of_mem_chunks (l : List α) : ∀ c ∈ chunks n l, c.length ≤ n :=
  length_le_of_mem_chunksAux n l.length l

end Chunks

/-! ## The summation tree over integers -/

/-- Integer terms as the tree takes them; an absent one stays absent. -/
def intTerms (l : List (Option Int)) : List (Option Acc) := l.map (Option.map Acc.i)

/-- The exact sum of the terms that are there. -/
def termSum (l : List (Option Int)) : Int := (l.map (·.getD 0)).sum

@[simp] theorem intTerms_cons (a : Option Int) (l : List (Option Int)) : intTerms (a :: l) = a.map Acc.i :: intTerms l := rfl

@[simp] theorem termSum_cons (a : Option Int) (l : List (Option Int)) : termSum (a :: l) = a.getD 0 + termSum l := rfl

/-- The value at one node of the tree: an absent term takes no part (log entry 24). -/
def treeNode : Option Acc → Option Acc → Option Acc
  | some x, some y => some (accAdd x y).1
  | none, y => y
  | x, none => x

theorem treeLevel_cons_cons (a b : Option Acc) (l : List (Option Acc)) :
    (treeLevel (a :: b :: l)).1 = treeNode a b :: (treeLevel l).1 := by
  cases a <;> cases b <;> rfl

/-- A node over integers keeps their sum modulo 2^32. -/
theorem treeNode_int (a b : Option Int) :
    ∃ r : Option Int, treeNode (a.map Acc.i) (b.map Acc.i) = r.map Acc.i ∧ r.getD 0 % 2 ^ 32 = (a.getD 0 + b.getD 0) % 2 ^ 32 := by
  match a, b with
  | none, b => exact ⟨b, rfl, by simp⟩
  | some a, none => exact ⟨some a, rfl, by simp⟩
  | some a, some b =>
    exact ⟨some ((a + b).bmod (2 ^ 32)), congrArg some (wrapAdd_fst a b), Int.bmod_emod⟩

/-- A level of the tree over integers halves the terms and keeps their sum modulo 2^32. -/
theorem treeLevel_int : ∀ l : List (Option Int), ∃ l', (treeLevel (intTerms l)).1 = intTerms l' ∧
    termSum l' % 2 ^ 32 = termSum l % 2 ^ 32 ∧ 2 * l'.length ≤ l.length + 1
  | [] => ⟨[], rfl, rfl, by simp⟩
  | [a] => ⟨[a], rfl, rfl, by simp⟩
  | a :: b :: l => by
    obtain ⟨r, hnode, hr⟩ := treeNode_int a b
    obtain ⟨l', hlevel, hsum, hlen⟩ := treeLevel_int l
    refine ⟨r :: l', ?_, ?_, ?_⟩
    · rw [intTerms_cons, intTerms_cons, treeLevel_cons_cons, hnode, hlevel, intTerms_cons]
    · rw [termSum_cons, termSum_cons, termSum_cons]
      omega
    · simp only [List.length_cons]; omega

/-- A tree of n levels over at most 2^n integers gives their sum modulo 2^32. -/
theorem treeSum_int (n : Nat) (l : List (Option Int)) (hlen : l.length ≤ 2 ^ n) :
    ∃ r : Option Int, (treeSum n (intTerms l)).1 = r.map Acc.i ∧ r.getD 0 % 2 ^ 32 = termSum l % 2 ^ 32 := by
  induction n generalizing l with
  | zero =>
    match l with
    | [] => exact ⟨none, rfl, rfl⟩
    | [a] => exact ⟨a, rfl, by simp [termSum]⟩
    | _ :: _ :: _ => simp at hlen
  | succ n ih =>
    obtain ⟨l', hlevel, hsum, hhalf⟩ := treeLevel_int l
    obtain ⟨r, hrest, hr⟩ := ih l' (by rw [Nat.pow_succ] at hlen; omega)
    refine ⟨r, ?_, hr.trans hsum⟩
    rw [← hrest, ← hlevel]
    rfl

/-- The 32 leaves of a chunk's tree; those past its terms are absent. -/
def chunkLeaves (c : List Int) : List (Option Int) := padTo 32 none (c.map some)

theorem intTerms_chunkLeaves (c : List Int) : intTerms (chunkLeaves c) = padTo 32 none ((c.map Acc.i).map some) := by
  simp [intTerms, chunkLeaves, padTo, Function.comp_def]

theorem termSum_chunkLeaves (c : List Int) : termSum (chunkLeaves c) = c.sum := by
  simp [termSum, chunkLeaves, padTo, Function.comp_def]

theorem length_chunkLeaves (c : List Int) (hlen : c.length ≤ 32) : (chunkLeaves c).length = 32 := by
  simp [chunkLeaves, padTo, hlen]

/-- The tree over one chunk gives the chunk's sum modulo 2^32. -/
theorem treeSum_chunk (c : List Int) (hlen : c.length ≤ 32) :
    ∃ r : Option Int, (treeSum 5 (padTo 32 none ((c.map Acc.i).map some))).1 = r.map Acc.i ∧ r.getD 0 % 2 ^ 32 = c.sum % 2 ^ 32 := by
  rw [← intTerms_chunkLeaves, ← termSum_chunkLeaves]
  exact treeSum_int 5 (chunkLeaves c) (Nat.le_of_eq (length_chunkLeaves c hlen))

/-! ## The accumulation -/

theorem sumChunks_cons_none (acc : Acc) (c : List Acc) (cs : List (List Acc))
    (htree : (treeSum 5 (padTo 32 none (c.map some))).1 = none) : sumChunks acc (c :: cs) = sumChunks acc cs := by
  simp only [sumChunks, htree]

theorem sumChunks_cons_some (acc : Acc) (c : List Acc) (cs : List (List Acc)) (t : Acc)
    (htree : (treeSum 5 (padTo 32 none (c.map some))).1 = some t) :
    (sumChunks acc (c :: cs)).1 = (sumChunks (accAdd acc t).1 cs).1 := by
  simp only [sumChunks, htree]

/-- Chunk after chunk, an accumulator of 32 bits comes to the wrapped sum of itself and all terms. -/
theorem sumChunks_int (cs : List (List Int)) (hlen : ∀ c ∈ cs, c.length ≤ 32) (acc : Int) (hacc : acc.bmod (2 ^ 32) = acc) :
    (sumChunks (.i acc) (cs.map (List.map Acc.i))).1 = .i ((acc + cs.flatten.sum).bmod (2 ^ 32)) := by
  induction cs generalizing acc with
  | nil =>
    rw [List.flatten_nil, List.sum_nil, Int.add_zero, hacc]
    rfl
  | cons c cs ih =>
    obtain ⟨hc, hcs⟩ := List.forall_mem_cons.mp hlen
    obtain ⟨r, htree, hr⟩ := treeSum_chunk c hc
    have hwrap : (acc + r.getD 0 + cs.flatten.sum).bmod (2 ^ 32) = (acc + (c :: cs).flatten.sum).bmod (2 ^ 32) := by
      rw [List.flatten_cons, List.sum_append_int]
      exact bmod_eq_of_emod_eq (by omega)
    rw [← hwrap]
    cases r with
    | none =>
      rw [List.map_cons, sumChunks_cons_none _ _ _ htree, ih hcs acc hacc, Option.getD_none, Int.add_zero]
    | some t =>
      have hadd : (accAdd (.i acc) (.i t)).1 = .i ((acc + t).bmod (2 ^ 32)) := wrapAdd_fst acc t
      rw [List.map_cons, sumChunks_cons_some _ _ _ _ htree, hadd, ih hcs _ Int.bmod_bmod, Int.bmod_add_bmod, Option.getD_some]

/-- In (+,x) the output is the accumulation of the terms' products. -/
theorem dotOut_sumProduct_fst (iacc : Bool) (c : Acc) (ps : List (Int × Int)) :
    (dotOut 0 iacc c (ps.map fun p => (some (.i p.1), some (.i p.2)))).1 =
      (sumChunks c (chunks 32 ((ps.map fun p => p.1 * p.2).map Acc.i))).1 := by
  simp [dotOut, otimes, Function.comp_def]

/-- The INT32 output of (+,x): the exact sum, wrapped. -/
theorem dotOut_int (c : Int) (ps : List (Int × Int)) (hmin : -2 ^ 31 ≤ c) (hmax : c < 2 ^ 31) :
    (dotOut 0 true (.i c) (ps.map fun p => (some (.i p.1), some (.i p.2)))).1 =
      .i ((c + (ps.map fun p => p.1 * p.2).sum).bmod (2 ^ 32)) := by
  have hc : c.bmod (2 ^ 32) = c := Int.bmod_eq_of_le (by omega) (by omega)
  rw [dotOut_sumProduct_fst, chunks_map, sumChunks_int _ (length_le_of_mem_chunks 32 _) c hc, flatten_chunks 32 (by decide)]

/-! ## The fold of (min,+) -/

/-- (min,+) prefers the lesser integer. -/
theorem better_minPlus (t cur : Int) : better 1 (.i t) (.i cur) = decide (t < cur) := by
  simp [better]

/-- The value of the (min,+) fold, from any index and any term that decides so far. -/
theorem semiFold_minPlus (k : Nat) (c : Int) (best : Option Nat) (ts : List Int) :
    (semiFold 1 k (.i c) best (ts.map Acc.i)).1 = .i (ts.foldl min c) := by
  induction ts generalizing k c best with
  | nil => rfl
  | cons t ts ih =>
    rw [List.map_cons, semiFold, better_minPlus, List.foldl_cons]
    by_cases hlt : t < c
    · rw [if_pos (decide_eq_true hlt), ih, Int.min_eq_right (Int.le_of_lt hlt)]
    · rw [if_neg (by simpa using hlt), ih, Int.min_eq_left (Int.not_lt.mp hlt)]

/-- Settles O22: every node of the tree and every chunk keep the sum modulo 2^32, and each step of the fold keeps the lesser term. -/
theorem fabricIntegerResults : Obligations.FabricIntegerResults := by
  refine ⟨fun c ps hmin hmax => ?_, fun c ts => semiFold_minPlus 0 c none ts⟩
  rw [toSigned_ofInt]
  exact dotOut_int c ps hmin hmax

end Sys2Proof.Proofs
end

section
/-! The Update Units. An acknowledgement changes the Crags only, and ops tried again leave no hold noted, so a unit's command does
what its one update (R246) or its one migration step (R258) does. -/

namespace Sys2Proof.Proofs
open Sys2Proof.Machine

/-! ## An acknowledged update -/

/-- An acknowledgement changes the Crags only. -/
theorem eupdAck_eq (w : Work) (c n : Nat) (performed : Bool) :
    eupdAck w c n performed = { w with crags := (eupdAck w c n performed).crags } := by
  unfold eupdAck
  dsimp only
  split <;> rfl

@[simp] theorem eupdAck_hold (w : Work) (c n : Nat) (performed : Bool) : (eupdAck w c n performed).hold = w.hold := by rw [eupdAck_eq]

@[simp] theorem eupdAck_dram (w : Work) (c n : Nat) (performed : Bool) : (eupdAck w c n performed).dram = w.dram := by rw [eupdAck_eq]

@[simp] theorem getUpd_eupdAck (w : Work) (c n u : Nat) (performed : Bool) : getUpd (eupdAck w c n performed) u = getUpd w u := by
  rw [eupdAck_eq]
  rfl

/-! ## Ops tried again -/

/-- A change that does not happen when it meets a hold notes none. -/
theorem unlessHeld_hold (f : Work → Work) (w : Work) (h : w.hold = none) : (unlessHeld f w).hold = none := by
  simp only [unlessHeld, h, Option.isNone_none, Bool.and_true]
  split
  case isTrue => exact h
  case isFalse hmet => simpa using hmet

/-- An op that is tried again and meets a hold goes on waiting, so no hold is noted for the command (R259, R292). -/
theorem retryPuts_hold (w : Work) (h : w.hold = none) : (retryPuts w).hold = none := by
  unfold retryPuts
  generalize w.crags.flatMap _ = ops
  induction ops generalizing w with
  | nil => exact h
  | cons e ops ih => exact ih _ (unlessHeld_hold _ w h)

/-! ## Commands of a unit -/

/-- A unit's command that belongs to no ordered source and met no hold happens. -/
theorem onUnit_settle_go (what : String) {count n : Nat} (s : State) (cmd : Instr) (f : Work → Work) (hn : n < count)
    (hsource : sourceOf cmd = none) (h : (f s.work).hold = none) :
    onUnit what count n s (fun s => { s with work := settle cmd s.work (f s.work) }) = .next { s with work := f s.work } :=
  (onUnit_next _ _ _ _ _ _).mpr ⟨hn, by rw [settle_go cmd _ _ (behind_free _ _ hsource) h]⟩

section Commands
variable {s : State} {u : Nat} (hu : u < 8)
include hu

theorem exec_updateUnitApply_go (h : (updateUnitApply s.work u).hold = none) :
    exec (.updateUnitApply u) s = .next { s with work := retryPuts (updateUnitApply s.work u) } :=
  onUnit_settle_go _ s (.updateUnitApply u) (fun w => retryPuts (updateUnitApply w u)) hu rfl (retryPuts_hold _ h)

theorem exec_migrateClaimAck_go (row : Nat) (h : (migClaimAck s.work u row).hold = none) :
    exec (.migrateClaimAck u row) s = .next { s with work := migClaimAck s.work u row } :=
  onUnit_settle_go _ s (.migrateClaimAck u row) (fun w => migClaimAck w u row) hu rfl h

theorem exec_migrateCopyAck_go (row : Nat) (h : (migCopyAck s.work u row).hold = none) :
    exec (.migrateCopyAck u row) s = .next { s with work := retryPuts (migCopyAck s.work u row) } :=
  onUnit_settle_go _ s (.migrateCopyAck u row) (fun w => retryPuts (migCopyAck w u row)) hu rfl (retryPuts_hold _ h)

theorem exec_migrateSwitchAck_go (row : Nat) (h : (migSwitchAck s.work u row).hold = none) :
    exec (.migrateSwitchAck u row) s = .next { s with work := migSwitchAck s.work u row } :=
  onUnit_settle_go _ s (.migrateSwitchAck u row) (fun w => migSwitchAck w u row) hu rfl h

end Commands

/-! ## The first update of the queue -/

/-- A slot that reads without fault or poison and whose write does not fault: the row and its slot's bytes count (log entry 50), and
the op hears of it (R246, R249). -/
theorem updAt_performed {w v v' : Work} {u a : Nat} {x : Upd} {bs : List Byte}
    (hread : vRead w (.upd u) (updReq x.ten) a (eSlot x.dirEnt) = (v, bs, false, none))
    (hwrite : vWrite v (.upd u) (updReq x.ten) a (updSlot x bs) false = (v', none)) :
    updAt w u x a = eupdAck (setUpd v' u { getUpd v' u with
      rowsDone := bump (getUpd v' u).rowsDone 1, slotBytes := bump (getUpd v' u).slotBytes (eSlot x.dirEnt) }) x.crag x.op true := by
  simp only [updAt, hread, hwrite, Bool.false_eq_true, if_false]

/-- An update of a row that neither migrates nor may have been forwarded goes to its home slot (R246). -/
theorem updateUnitApply_home {w : Work} {u : Nat} {x : Upd} {rest : List Upd} (hqueue : (getUpd w u).queue = x :: rest)
    (hruns : updRuns w = true) (hopc : x.opc ≠ 0x7E) (hmig : migOf (getUpd w u) x = none) (hfwd : eFwd x.dirEnt = false) :
    updateUnitApply w u =
      updAt (setUpd w u { getUpd w u with queue := rest, served := x.ten }) u x (homeSlot x.dirEnt x.idx) := by
  simp only [updateUnitApply, hqueue, hruns, if_neg hopc, hmig, hfwd, Option.isSome_none, Bool.not_true,
    Bool.false_eq_true, if_false]

/-! ## A unit's only migration -/

/-- A step of the phase that the only migration is in replaces it by what the step leaves of it. -/
theorem migStep_only {w v : Work} {u phase : Nat} {g : Mig} {r : Option Mig} {f : Work → Mig → Work × Option Mig}
    (hmigs : (getUpd w u).migs = [g]) (hphase : g.phase = phase) (hf : f w g = (v, r)) (hkept : (getUpd v u).migs = [g]) :
    migStep w u g.row phase f = setUpd v u { getUpd v u with served := g.ten, migs := r.toList } := by
  cases r <;> simp [migStep, hmigs, hphase, hf, hkept]

section Migration
variable {w : Work} {u : Nat} {g : Mig} (hmigs : (getUpd w u).migs = [g])
include hmigs

/-- R258, step 2: the whole slot is read and written to the destination, with its poison. -/
theorem migClaimAck_copies (hphase : g.phase = 0) (hruns : updRuns w = true) {v v' : Work} {bs : List Byte} {poison : Bool}
    (hread : vRead w (.upd u) (updReq g.ten) g.srcAt (eSlot g.dirEnt) = (v, bs, poison, none))
    (hwrite : vWrite v (.upd u) (updReq g.ten) g.dst bs poison = (v', none)) (hkept : (getUpd v' u).migs = [g]) :
    migClaimAck w u g.row = setUpd v' u { getUpd v' u with served := g.ten, migs := [{ g with phase := 1 }] } := by
  simp only [migClaimAck, hruns, Bool.not_true, Bool.false_eq_true, if_false]
  exact migStep_only (r := some { g with phase := 1 }) hmigs hphase (by simp only [hread, hwrite]) hkept

/-- R258, step 4, when no update was held: the forwarding entry names the destination. -/
theorem migCopyAck_switches (hphase : g.phase = 1) (hruns : updRuns w = true) (hstate : g.state = 1) (hheld : g.held = [])
    (hkept : (getUpd (writeEntry w u g.ten g.bucketAt g.row 2 g.dst) u).migs = [g]) :
    migCopyAck w u g.row =
      let v := writeEntry w u g.ten g.bucketAt g.row 2 g.dst
      setUpd v u { getUpd v u with served := g.ten, migs := [{ g with phase := 2, held := [] }] } := by
  simp only [migCopyAck, hruns, Bool.not_true, Bool.false_eq_true, if_false]
  exact migStep_only (r := some { g with phase := 2, held := [] }) hmigs hphase
    (by simp only [hheld, hstate, List.foldl_nil, if_true]) hkept

/-- The acknowledged switch ends the migration, and its op hears of it (R258). -/
theorem migSwitchAck_ends (hphase : g.phase = 2) :
    migSwitchAck w u g.row = setUpd (eupdAck w g.crag g.op true) u { getUpd w u with served := g.ten, migs := [] } := by
  have hkept : (getUpd (eupdAck w g.crag g.op true) u).migs = [g] := by rw [getUpd_eupdAck, hmigs]
  have hstep := migStep_only (f := fun w g => (eupdAck w g.crag g.op true, none)) hmigs hphase rfl hkept
  simpa [migSwitchAck] using hstep

end Migration

/-- Settles O42: no access meets a hold and no op tried again notes one, so each command does what its update or its migration step
does. -/
theorem updatesApplyAndMigrationsMoveRows : Obligations.UpdatesApplyAndMigrationsMoveRows := by
  intro s u hu hhold
  refine ⟨fun x rest hqueue hruns hopc hmig hfwd w bs v hread hwrite hv => ?apply, fun g hmigs => ⟨?claim, ?copy, ?switch⟩⟩
  case apply =>
    have happly := (updateUnitApply_home hqueue hruns hopc hmig hfwd).trans (updAt_performed hread hwrite)
    exact ⟨_, exec_updateUnitApply_go hu (by simp [happly, hv]), rfl, congrArg retryPuts happly⟩
  case claim =>
    intro hphase hruns w bs poison v hread hwrite hv hkept
    have hcopies := migClaimAck_copies hmigs hphase hruns hread hwrite hkept
    rw [exec_migrateClaimAck_go hu g.row (by simp [hcopies, hv]), hcopies]
  case copy =>
    intro hphase hruns hstate hheld w hw hkept
    have hswitches := migCopyAck_switches hmigs hphase hruns hstate hheld hkept
    rw [exec_migrateCopyAck_go hu g.row (by simpa [hswitches] using hw), hswitches]
  case switch =>
    intro hphase
    have hends := migSwitchAck_ends hmigs hphase
    refine ⟨_, exec_migrateSwitchAck_go hu g.row (by simp [hends, hhold]), rfl, ?_⟩
    simp [hends]

end Sys2Proof.Proofs
end

section
/-! The blocks of a channel's DRAM: what a block and its errors read after a write of the same or another block, what a read block
brings back to DRAM, and the copy of a rank row (R362). -/

namespace Sys2Proof.Proofs
open Sys2Proof.Machine

/-! ## A channel and its commands -/

/-- A command of one unit among those of its kind happens. -/
theorem onUnit_go (what : String) {count n : Nat} (s : State) (f : State → State) (hn : n < count) :
    onUnit what count n s f = .next (f s) := if_pos hn

theorem getCh_raise (w : Work) (src : BitVec 16) (kind ten addr j : Nat) : getCh (raise w src kind ten addr) j = getCh w j := by
  unfold getCh
  rw [raise_chs]

/-! ## Stored blocks -/

@[simp] theorem dramKey_inj (c x y : Nat) : dramKey c x = dramKey c y ↔ x = y := by simp [dramKey]

theorem dramKey_block (c x : Nat) : dramKey c x / 128 = c * 2 ^ 28 + x / 128 := by
  unfold dramKey
  omega

/-- One byte of a channel after bytes are written to it. -/
theorem dramGet_putRaw (c y : Nat) : ∀ (bs : List Byte) (w : Work) (x : Nat), dramGet (putRaw w c x bs) c y =
    if x ≤ y ∧ y < x + bs.length then bs.getD (y - x) 0 else dramGet w c y
  | [], w, x => by rw [putRaw, if_neg (by rw [List.length_nil]; omega)]
  | b :: bs, w, x => by
    rw [putRaw, dramGet_putRaw c y bs, dramGet_set]
    simp only [dramKey_inj, List.length_cons]
    by_cases hfirst : y = x
    case pos =>
      subst hfirst
      rw [if_neg (by omega), if_pos rfl, if_pos (by omega), Nat.sub_self, List.getD_cons_zero]
    case neg =>
      by_cases hrest : x + 1 ≤ y ∧ y < x + 1 + bs.length
      case pos =>
        rw [if_pos hrest, if_pos (by omega), show y - x = y - (x + 1) + 1 by omega, List.getD_cons_succ]
      case neg => rw [if_neg hrest, if_neg hfirst, if_neg (by omega)]

@[simp] theorem rawBlock_length (w : Work) (c x : Nat) : (rawBlock w c x).length = 128 := by simp [rawBlock]

theorem rawBlock_putRaw_same (w : Work) (c x : Nat) {bs : List Byte} (hlength : bs.length = 128) :
    rawBlock (putRaw w c x bs) c x = bs := by
  refine List.ext_getElem (by simp [hlength]) fun i _ hi => ?_
  simp [rawBlock, dramGet_putRaw, hi, List.getD_eq_getElem?_getD]

theorem rawBlock_putRaw_apart (w : Work) (c : Nat) {x y : Nat} {bs : List Byte} (hapart : y + 128 ≤ x ∨ x + bs.length ≤ y) :
    rawBlock (putRaw w c x bs) c y = rawBlock w c y := by
  refine List.map_congr_left fun i hi => ?_
  have hi := List.mem_range.mp hi
  rw [dramGet_putRaw, if_neg (by omega)]

theorem errsAt_setErrs (w : Work) (c x y : Nat) (l : List (Nat × Byte)) :
    errsAt (setErrs w c x l) c y = if y / 128 = x / 128 then l else errsAt w c y := by
  have hkeys : dramKey c y / 128 = dramKey c x / 128 ↔ y / 128 = x / 128 := by
    rw [dramKey_block, dramKey_block]
    omega
  simp [errsAt, setErrs, Tab.get_set, hkeys]

/-- A whole block reads back as written. -/
theorem rawBlock_putBlock_same (w : Work) (c x : Nat) {bs : List Byte} (hlength : bs.length = 128) :
    rawBlock (putBlock w c x bs) c x = bs := rawBlock_putRaw_same w c x hlength

theorem rawBlock_putBlock_apart (w : Work) (c : Nat) {x y : Nat} {bs : List Byte} (hapart : y + 128 ≤ x ∨ x + bs.length ≤ y) :
    rawBlock (putBlock w c x bs) c y = rawBlock w c y := rawBlock_putRaw_apart w c hapart

/-- No error stands in a block just written. -/
@[simp] theorem errsAt_putBlock_same (w : Work) (c x : Nat) (bs : List Byte) : errsAt (putBlock w c x bs) c x = [] := by
  simp [putBlock, errsAt_setErrs]

theorem errsAt_putBlock_apart (w : Work) (c : Nat) {x y : Nat} (bs : List Byte) (hapart : y / 128 ≠ x / 128) :
    errsAt (putBlock w c x bs) c y = errsAt w c y := by
  rw [putBlock, errsAt_setErrs, if_neg hapart, putRaw_eq]
  rfl

/-- A block written through its controller stands at its place as written, without errors (R317). -/
theorem chPut_block (w : Work) (c x : Nat) {bs : List Byte} {poison : Bool} (hlength : (if poison then marker else bs).length = 128) :
    errsAt (chPut w c x bs poison) c (remapX (getCh w c) x) = [] ∧
      rawBlock (chPut w c x bs poison) c (remapX (getCh w c) x) = if poison then marker else bs :=
  ⟨errsAt_putBlock_same .., rawBlock_putBlock_same _ c _ hlength⟩

/-! ## Blocks as read -/

/-- Errors flip symbols, and leave a codeword as long as it was. -/
theorem withErrors_length (h : Nat) (err : List (Nat × Byte)) (r : List Nat) : (withErrors h err r).length = r.length := by
  induction err generalizing r with
  | nil => rfl
  | cons e err ih =>
    rw [withErrors, List.foldl_cons, ← withErrors, ih]
    split <;> simp [setAt]

theorem codeword_length {bs : List Byte} {h : Nat} (hlength : bs.length = 128) (hh : h < 2) : 64 ≤ (codeword bs h).length := by
  simp only [codeword, rsEncode, List.length_append, List.length_map, List.length_take, List.length_drop]
  omega

/-- Decoding corrects symbols in place. -/
theorem rsDecode_length {r erased : List Nat} {d : List Nat × List Nat} (hd : rsDecode r erased = some d) : d.1.length = r.length := by
  unfold rsDecode at hd
  dsimp only at hd
  by_cases hclean : (rsSyndromes r).all (· = 0) = true
  case pos =>
    rw [if_pos hclean] at hd
    cases hd
    rfl
  case neg =>
    rw [if_neg hclean] at hd
    obtain ⟨-, hd⟩ := Option.ite_none_left_eq_some.mp hd
    obtain ⟨-, hd⟩ := Option.ite_none_right_eq_some.mp hd
    cases hd
    simp [rsFix]

/-- A codeword of a block that decodes gives its 64 data symbols. -/
theorem decodeHalf_length {raw : List Byte} {marked h : Nat} {err : List (Nat × Byte)} {d : List Nat × List Nat}
    (hraw : raw.length = 128) (hh : h < 2) (hd : decodeHalf raw marked err h = some d) : d.1.length = 64 := by
  obtain ⟨-, hd⟩ := Option.ite_none_left_eq_some.mp hd
  obtain ⟨e, he, rfl⟩ := Option.map_eq_some_iff.mp hd
  have hsymbols := codeword_length hraw hh
  rw [List.length_take, rsDecode_length he, withErrors_length]
  omega

/-- A block is read as its 128 bytes decode, or as zeros with poison where it is uncorrectable. -/
theorem decodeAt_cases (w : Work) (c x marked : Nat) (err : List (Nat × Byte)) :
    (∃ bs fix0 fix1, bs.length = 128 ∧ decodeAt w c x marked err = delivered bs fix0 fix1) ∨
    ∃ fix0 fix1, decodeAt w c x marked err = { data := zeros 128, poison := true, fix0 := fix0, fix1 := fix1, ue := true } := by
  unfold decodeAt
  dsimp only
  split
  case isTrue => exact .inl ⟨_, _, _, rawBlock_length w c x, rfl⟩
  case isFalse =>
    split
    case h_1 a b ha hb =>
      have hraw := rawBlock_length w c x
      refine .inl ⟨_, _, _, ?_, rfl⟩
      simp [decodeHalf_length hraw (by decide) ha, decodeHalf_length hraw (by decide) hb]
    case h_2 => exact .inr ⟨_, _, rfl⟩

/-- An uncorrectable block is delivered as zeros with poison (R353). -/
theorem decodeAt_ue {w : Work} {c x marked : Nat} {err : List (Nat × Byte)} (hue : (decodeAt w c x marked err).ue = true) :
    (decodeAt w c x marked err).data = zeros 128 ∧ (decodeAt w c x marked err).poison = true := by
  obtain ⟨bs, fix0, fix1, -, hread⟩ | ⟨fix0, fix1, hread⟩ := decodeAt_cases w c x marked err
  case inl =>
    rw [hread, delivered] at hue
    split at hue <;> cases hue
  case inr => simp [hread]

/-- What goes back to DRAM for a block as read: the data, or the marker of a poisoned one (R355). -/
def writtenBack (r : EccRead) : List Byte := if r.poison then marker else r.data

theorem writtenBack_decodeAt_length (w : Work) (c x marked : Nat) (err : List (Nat × Byte)) :
    (writtenBack (decodeAt w c x marked err)).length = 128 := by
  have hmarker : marker.length = 128 := by simp [marker]
  obtain ⟨bs, fix0, fix1, hlength, hread⟩ | ⟨fix0, fix1, hread⟩ := decodeAt_cases w c x marked err
  case inl =>
    rw [hread, delivered]
    split <;> simp [writtenBack, hmarker, hlength]
  case inr => simp [hread, writtenBack, hmarker]

/-- A block that was written back reads as before, with nothing to correct. -/
theorem delivered_writtenBack (w : Work) (c x marked : Nat) (err : List (Nat × Byte)) :
    delivered (writtenBack (decodeAt w c x marked err)) [] [] =
      { decodeAt w c x marked err with fix0 := [], fix1 := [], ue := false } := by
  obtain ⟨bs, fix0, fix1, -, hread⟩ | ⟨fix0, fix1, hread⟩ := decodeAt_cases w c x marked err
  case inl =>
    rw [hread]
    by_cases hmarker : bs = marker <;> simp [delivered, writtenBack, hmarker]
  case inr => simp [hread, delivered, writtenBack]

/-- A read depends on the 128 stored bytes, the mark and the errors alone. -/
theorem decodeAt_congr {w v : Work} {c d x y : Nat} (marked : Nat) (err : List (Nat × Byte)) (hraw : rawBlock w c x = rawBlock v d y) :
    decodeAt w c x marked err = decodeAt v d y marked err := by
  simp only [decodeAt, hraw]

/-- Without errors a block is delivered as stored. -/
theorem decodeAt_clean (w : Work) (c x marked : Nat) : decodeAt w c x marked [] = delivered (rawBlock w c x) [] [] := by simp [decodeAt]

/-! ## The copy of a rank row -/

/-- Block i of a rank row, copied. -/
def copyBlock (c src dst marked : Nat) (w : Work) (i : Nat) : Work :=
  putBlock w c (8192 * dst + 128 * i)
    (writtenBack (decodeAt w c (8192 * src + 128 * i) marked (errsAt w c (8192 * src + 128 * i))))

/-- The first n blocks of a rank row, copied. -/
def copyBlocks (w : Work) (c src dst marked n : Nat) : Work := (List.range n).foldl (copyBlock c src dst marked) w

theorem copyRow_eq_copyBlocks (w : Work) (c src dst : Nat) :
    copyRow w c src dst = copyBlocks w c src dst (markAt (getCh w c) (8192 * src)) 64 := rfl

theorem copyBlocks_succ (w : Work) (c src dst marked n : Nat) :
    copyBlocks w c src dst marked (n + 1) = copyBlock c src dst marked (copyBlocks w c src dst marked n) n := by
  simp [copyBlocks, List.range_succ]

/-- A copy changes the bytes of the channels and the errors that stand in them only. -/
theorem copyBlocks_eq (w : Work) (c src dst marked n : Nat) : copyBlocks w c src dst marked n =
    { w with dram := (copyBlocks w c src dst marked n).dram, errs := (copyBlocks w c src dst marked n).errs } := by
  induction n with
  | zero => rfl
  | succ n ih =>
    rw [copyBlocks_succ, copyBlock, putBlock_eq, ih]

theorem copyRow_eq (w : Work) (c src dst : Nat) :
    copyRow w c src dst = { w with dram := (copyRow w c src dst).dram, errs := (copyRow w c src dst).errs } :=
  copyBlocks_eq w c src dst _ 64

section Copy
variable (w : Work) (c : Nat) {src dst : Nat} (marked : Nat) {n : Nat} (hn : n ≤ 64)
include hn

/-- A copy into another rank row leaves the blocks of its source, and the errors that stand in them. -/
theorem copyBlocks_source (hne : src ≠ dst) {i : Nat} (hi : i < 64) :
    rawBlock (copyBlocks w c src dst marked n) c (8192 * src + 128 * i) = rawBlock w c (8192 * src + 128 * i) ∧
      errsAt (copyBlocks w c src dst marked n) c (8192 * src + 128 * i) = errsAt w c (8192 * src + 128 * i) := by
  induction n with
  | zero => exact ⟨rfl, rfl⟩
  | succ n ih =>
    obtain ⟨hraw, herrs⟩ := ih (by omega)
    rw [copyBlocks_succ, copyBlock, rawBlock_putBlock_apart _ c (by rw [writtenBack_decodeAt_length]; omega),
      errsAt_putBlock_apart _ c _ (by omega)]
    exact ⟨hraw, herrs⟩

/-- Each copied block stands in the other row as its source was read, without errors. -/
theorem copyBlocks_dest (hne : src ≠ dst) {i : Nat} (hi : i < n) :
    rawBlock (copyBlocks w c src dst marked n) c (8192 * dst + 128 * i) =
        writtenBack (decodeAt w c (8192 * src + 128 * i) marked (errsAt w c (8192 * src + 128 * i))) ∧
      errsAt (copyBlocks w c src dst marked n) c (8192 * dst + 128 * i) = [] := by
  induction n with
  | zero => omega
  | succ n ih =>
    rw [copyBlocks_succ, copyBlock]
    by_cases hlast : i = n
    case pos =>
      subst hlast
      obtain ⟨hraw, herrs⟩ := copyBlocks_source w c marked (n := i) (by omega) hne (i := i) (by omega)
      rw [rawBlock_putBlock_same _ c _ (writtenBack_decodeAt_length ..), herrs, decodeAt_congr _ _ hraw]
      exact ⟨rfl, errsAt_putBlock_same ..⟩
    case neg =>
      rw [rawBlock_putBlock_apart _ c (by rw [writtenBack_decodeAt_length]; omega), errsAt_putBlock_apart _ c _ (by omega)]
      exact ih (by omega) (by omega)

end Copy

end Sys2Proof.Proofs
end

section
/-! The copy of a failed rank row completes (R362): its new entry is the one that maps the row, and the spare row holds its blocks as
they were read. -/

namespace Sys2Proof.Proofs
open Sys2Proof.Machine

/-! ## Remap entries -/

theorem find?_put {α : Type} {p : Nat × α → Bool} {k : Nat} {v : α} (hv : p (k, v) = true) :
    ∀ {t : Tab α}, t.find? p = none → (Tab.put t k v).find? p = some (k, v)
  | [], _ => by simp [Tab.put, hv]
  | (j, u) :: t, hnone => by
    obtain ⟨hu, ht⟩ : p (j, u) = false ∧ t.find? p = none := by simpa using hnone
    unfold Tab.put
    split
    case isTrue => simp [hv]
    case isFalse =>
      split
      case isTrue => simp [hv]
      case isFalse => rw [List.find?_cons, hu]; exact find?_put hv ht

/-- A valid entry set for a row that had none is the row's entry. -/
theorem entryOf_set {m : MemCh} {row k : Nat} {e : Remap} (hnone : entryOf m row = none) (hvalid : e.valid = true)
    (hrow : e.row = row) : entryOf { m with remaps := Tab.set remapD m.remaps k e } row = some (k, e) := by
  have hlisted : e ≠ remapD k := fun h => by simp [h, remapD] at hvalid
  unfold entryOf Tab.set
  rw [if_neg hlisted]
  exact find?_put (by simp [hvalid, hrow]) hnone

/-- A block lies in the spare row of its rank row's entry, or in place (R362). -/
theorem remapX_eq (m : MemCh) (x : Nat) :
    remapX m x = match entryOf m (x / 8192) with | some e => 8192 * e.2.spare + x % 8192 | none => x := rfl

theorem remapX_congr {m n : MemCh} (hremaps : m.remaps = n.remaps) (x : Nat) : remapX m x = remapX n x := by
  simp only [remapX, hremaps]

section Block
variable {m : MemCh} {row i : Nat} (hi : i < 64)
include hi

theorem remapX_unmapped (hentry : entryOf m row = none) : remapX m (8192 * row + 128 * i) = 8192 * row + 128 * i := by
  rw [remapX_eq, show (8192 * row + 128 * i) / 8192 = row by omega, hentry]

theorem remapX_mapped {k : Nat} {e : Remap} (hentry : entryOf m row = some (k, e)) :
    remapX m (8192 * row + 128 * i) = 8192 * e.spare + 128 * i := by
  rw [remapX_eq, show (8192 * row + 128 * i) / 8192 = row by omega, show (8192 * row + 128 * i) % 8192 = 128 * i by omega, hentry]

/-- The blocks of a rank row lie in one rank, whose mark applies to them (R354). -/
theorem markAt_row : markAt m (8192 * row + 128 * i) = markAt m (8192 * row) := by
  unfold markAt rankOf bitsN
  rw [show (8192 * row + 128 * i) / 2 ^ 17 = 8192 * row / 2 ^ 17 by omega]

end Block

/-! ## The row copied -/

/-- The entry that a row gets for a spare row (R362). -/
def freshRemap (m : MemCh) (r : RowHold) (sp : Nat) : Remap :=
  { valid := true, pending := r.dev < 5 && !decide (hpprKey r.row r.dev ∈ m.hpprUsed), row := r.row, spare := sp, dev := r.dev
    remaps := 0 }

/-- The channel after the copy of its first held row. -/
def remappedCh (m : MemCh) (r : RowHold) (rest : List RowHold) (k sp : Nat) : MemCh :=
  { dropRow m r.row with rowsHeld := rest, spareUsed := m.spareUsed ++ [sp], remaps := Tab.set remapD m.remaps k (freshRemap m r sp) }

theorem getCh_copyRow (w : Work) (c src dst j : Nat) : getCh (copyRow w c src dst) j = getCh w j := by
  unfold getCh
  rw [copyRow_eq]

/-- A held row without an entry is copied to a free spare row and gets a free entry (R362). -/
theorem rowRemapped_fresh {w : Work} {c sp k : Nat} {r : RowHold} {rest : List RowHold} (hheld : (getCh w c).rowsHeld = r :: rest)
    (hspare : freeSpare (getCh w c) = some sp) (hentry : entryOf (getCh w c) r.row = none)
    (hfree : freeEntry (getCh w c) = some k) :
    rowRemapped w c =
      raise (setCh (copyRow w c r.row sp) c (remappedCh (getCh w c) r rest k sp)) (srcCh c) 0x48 0 (rowAddr r.row) := by
  simp only [rowRemapped, hheld, hspare, hentry, hfree, getCh_copyRow]
  rfl

/-- A read of a block depends on its channel's entries and marks, on the block's bytes and on the errors in it. -/
theorem eccRead_raise_setCh (w : Work) (c x : Nat) (m : MemCh) (src : BitVec 16) (kind ten addr : Nat) :
    eccRead (raise (setCh w c m) src kind ten addr) c x = decodeAt w c (remapX m x) (markAt m (remapX m x)) (errsAt w c (remapX m x)) := by
  rw [eccRead, getCh_raise, getCh_setCh_same, raise_eq]
  rfl

/-- Each block of the row reads as before, with nothing to correct. -/
theorem eccRead_remapped {w : Work} {c sp k i : Nat} {r : RowHold} (rest : List RowHold) (hi : i < 64)
    (hentry : entryOf (getCh w c) r.row = none) (hne : r.row ≠ sp) (src : BitVec 16) (kind ten addr : Nat) :
    eccRead (raise (setCh (copyRow w c r.row sp) c (remappedCh (getCh w c) r rest k sp)) src kind ten addr) c (8192 * r.row + 128 * i) =
      { eccRead w c (8192 * r.row + 128 * i) with fix0 := [], fix1 := [], ue := false } := by
  have hmapped : entryOf (remappedCh (getCh w c) r rest k sp) r.row = some (k, freshRemap (getCh w c) r sp) :=
    entryOf_set hentry rfl rfl
  obtain ⟨hraw, herrs⟩ := copyBlocks_dest w c (markAt (getCh w c) (8192 * r.row)) (Nat.le_refl 64) hne hi
  rw [← copyRow_eq_copyBlocks] at hraw herrs
  have hbefore : eccRead w c (8192 * r.row + 128 * i) = decodeAt w c (8192 * r.row + 128 * i) (markAt (getCh w c) (8192 * r.row))
      (errsAt w c (8192 * r.row + 128 * i)) := by rw [eccRead, remapX_unmapped hi hentry, markAt_row hi]
  rw [eccRead_raise_setCh, remapX_mapped hi hmapped, hbefore, ← delivered_writtenBack, ← hraw]
  dsimp only [freshRemap]
  rw [herrs, decodeAt_clean]

theorem exec_rowRemapped {c : Nat} (hc : c < 24) (s : State) :
    exec (.rowRemapped c) s = .next { s with work := rowRemapped s.work c } :=
  onUnit_go "channel" s (fun s => { s with work := rowRemapped s.work c }) hc

/-- Settles O39: every block that was written back in the copy reads as before. -/
theorem remappedRowsReadAsBefore : Obligations.RemappedRowsReadAsBefore := by
  intro s c row sp k r rest hc _ hheld hrow hspare hentry hfree hne
  subst hrow
  have hcopied := rowRemapped_fresh hheld hspare hentry hfree
  refine ⟨_, exec_rowRemapped hc s, rfl, ?_⟩
  dsimp only
  rw [hcopied]
  have hread := fun i (hi : i < 64) => eccRead_remapped (k := k) rest hi hentry hne (srcCh c) 0x48 0 (rowAddr r.row)
  simp only [getCh_raise, getCh_setCh_same]
  refine ⟨rfl, ?_, ?_, ?_, by simp [remappedCh], fun i hi => by simp [hread i hi], fun j hj => by simp [getCh_setCh, hj, getCh_copyRow]⟩
  all_goals simp [remappedCh, freshRemap]

end Sys2Proof.Proofs
end

section
/-! Retraining (R357 to R361): what each command leaves of its channel. -/

namespace Sys2Proof.Proofs
open Sys2Proof.Machine

/-! ## Register writes of a channel -/

/-- A register write by an open bank that meets no hold happens. -/
theorem execReg_open {s : State} {b : Bank} {off width v : Nat} (hopen : s.bankOpen b)
    (hhold : (regPut s (bankNo b) off width v).work.hold = none) :
    execReg b off width v s = .next (regPut s (bankNo b) off width v) := by
  simp [execReg, regWrite_go s b off width v hopen hhold, hopen.1]

/-- A write of MC_CMD acts on the channel that the bank has selected (Table 11.8). -/
theorem regPut_mcCmd {s : State} {b c v : Nat} (hunit : winUnit s b 1 = some c) (hv : v < 2 ^ 32) :
    regPut s b 0x5008 4 v = { s with work := mcCmd s.work c v } := by
  have hmod : v % 4294967296 = v := Nat.mod_eq_of_lt hv
  simp [regPut, put4, wideKind, write32, hunit, winWrite, mcWrite, hmod]

/-- RETRAIN by an open bank acts on the channel that the bank has selected (R359). -/
theorem exec_retrain {s : State} {b : Bank} {c : Nat} (hopen : s.bankOpen b) (hunit : winUnit s (bankNo b) 1 = some c)
    (hhold : (retrainOp s.work c).hold = none) : exec (.retrain b) s = .next { s with work := retrainOp s.work c } := by
  have hput : regPut s (bankNo b) 0x5008 4 1 = { s with work := retrainOp s.work c } := regPut_mcCmd hunit (by decide)
  rw [← hput]
  exact execReg_open hopen (by rw [hput]; exact hhold)

/-! ## One channel changed -/

/-- A channel replaced leaves every other. -/
theorem onlyCh_setCh (w : Work) (c : Nat) (x : MemCh) : Work.onlyCh c w (setCh w c x) :=
  ⟨rfl, fun k hk => by rw [getCh_setCh, if_neg hk]⟩

theorem onlyCh_trans {c : Nat} {w v u : Work} (hv : Work.onlyCh c w v) (hu : Work.onlyCh c v u) : Work.onlyCh c w u := by
  obtain ⟨hwork, hothers⟩ := hv
  obtain ⟨hwork', hothers'⟩ := hu
  exact ⟨by rw [hwork', hwork], fun k hk => (hothers' k hk).trans (hothers k hk)⟩

/-! ## Retrains begin -/

section Begin
variable {w : Work} {c : Nat}

theorem retrainOp_refused (hbad : (getCh w c).state = 4 ∨ (getCh w c).state = 5 ∨ (getCh w c).tgBusy = true) :
    retrainOp w c = chRefuse w c := if_pos (by simpa [or_assoc] using hbad)

/-- A retrain holds an online channel from now on, its write queue drained (R358, R359). -/
theorem retrainStart_online (honline : (getCh w c).state = 2) :
    retrainStart w c = setCh w c { getCh w c with state := 3, retrain := true, holdAt := w.now, wq := [] } := if_pos honline

theorem retrainOp_online (honline : (getCh w c).state = 2) (hidle : (getCh w c).tgBusy = false) :
    retrainOp w c = setCh w c { getCh w c with state := 3, retrain := true, holdAt := w.now, wq := [] } := by
  simp [retrainOp, honline, hidle, retrainStart_online honline]

/-- A due retrain that was not planned within RetrainGrace is started by the controller, which reports it (R360). -/
theorem emergencyRetrain_late {s : State} (hdue : (getCh s.work c).due = true)
    (hlate : (getCh s.work c).dueSince.toNat + od s.work 0x2345 ≤ s.work.now.toNat) (hplan : retrainPlanned s c = false)
    (hretrain : (getCh s.work c).retrain = false) (honline : (getCh s.work c).state = 2) (hidle : (getCh s.work c).tgBusy = false) :
    emergencyRetrain s c =
      { s with work := retrainStart (raise (setCh s.work c { getCh s.work c with emerg := true }) (srcCh c) 0x43 0 0) c } := by
  simp [emergencyRetrain, hdue, hlate, hplan, hretrain, honline, hidle]

end Begin

/-! ## Retrains end or become due -/

section End
variable {w : Work} {c : Nat}

/-- The channel when its training has completed, while its hold still stands (R357). -/
def trainedCh (w : Work) (m : MemCh) : MemCh :=
  { m with retrain := false, trained := true, due := false, lastTrain := w.now, trainTemp := m.temp }

theorem retrainDone_ok (hretrain : (getCh w c).retrain = true) :
    retrainDone w c true = endHold (setCh w c (trainedCh w (getCh w c))) c := by
  simp [retrainDone, hretrain, trainedCh]

theorem retrainDone_fails (hretrain : (getCh w c).retrain = true) : retrainDone w c false = trainFails w c := by
  simp [retrainDone, hretrain]

/-- A hold that nothing continues brings the channel online. -/
theorem endHold_online (hagain : (getCh w c).again = false) (hppr : (getCh w c).pprQueue = []) :
    endHold w c = setCh w c { getCh w c with lastPause := pauseUs w (getCh w c), state := 2 } := by
  simp [endHold, hagain, hppr]

/-- A message of a class other than corrected is held (R503). -/
theorem raise_keeps (w : Work) (src : BitVec 16) (kind ten addr : Nat) (hclass : BitVec.ofNat 2 (kindClass kind) ≠ 0) :
    raise w src kind ten addr = { w with faultQ := w.faultQ ++ [faultMsg w.now src kind ten addr] } := holdFault_keeps _ _ hclass

/-- A failed training is reported (R361). -/
theorem trainFails_faultQ (w : Work) (c : Nat) :
    (trainFails w c).faultQ = w.faultQ ++ [faultMsg w.now (srcCh c) 0x44 0 0] :=
  congrArg Work.faultQ (raise_keeps _ _ _ _ _ (by decide))

/-- A trained channel with no retrain due takes the temperature, and a retrain is due when it moved too far (R360). -/
theorem retrainDue_trained (t : Int) (htrained : (getCh w c).trained = true) (hdue : (getCh w c).due = false) :
    ∃ m, retrainDue w c t = setCh w c m ∧ m.temp = t ∧ m.due = decide (od w 0x2346 < (t - (getCh w c).trainTemp).natAbs) := by
  by_cases hfar : od w 0x2346 < (t - (getCh w c).trainTemp).natAbs
  case pos =>
    exact ⟨{ getCh w c with temp := t, due := true, dueSince := w.now }, by simp [retrainDue, htrained, hdue, hfar], rfl, by simp [hfar]⟩
  case neg => exact ⟨{ getCh w c with temp := t }, by simp [retrainDue, hfar], rfl, by simp [hdue, hfar]⟩

end End

section Units
variable {c : Nat} (hc : c < 24) (s : State)
include hc

theorem exec_emergencyRetrain : exec (.emergencyRetrain c) s = .next (emergencyRetrain s c) :=
  onUnit_go "channel" s (fun s => emergencyRetrain s c) hc

theorem exec_retrainDone (ok : Bool) : exec (.retrainDone c ok) s = .next { s with work := retrainDone s.work c ok } :=
  onUnit_go "channel" s (fun s => { s with work := retrainDone s.work c ok }) hc

theorem exec_retrainDue (t : Int) : exec (.retrainDue c t) s = .next { s with work := retrainDue s.work c t } :=
  onUnit_go "channel" s (fun s => { s with work := retrainDue s.work c t }) hc

end Units

/-- Settles O40: each command replaces its channel, once or twice, by what the equation of its case says. -/
theorem channelsRetrain : Obligations.ChannelsRetrain := by
  intro s c hc hhold m only
  refine ⟨fun b hopen hunit => ⟨?refused, ?held⟩, ?emergency, ?online, ?fails, ?due⟩
  case refused =>
    intro hbad
    have hop := retrainOp_refused hbad
    refine ⟨_, exec_retrain hopen hunit (by rw [hop]; exact hhold), ⟨rfl, ?_⟩, ?_⟩ <;> rw [hop, chRefuse]
    · exact onlyCh_setCh ..
    · simp [m]
  case held =>
    intro honline hidle
    have hop := retrainOp_online honline hidle
    refine ⟨_, exec_retrain hopen hunit (by rw [hop]; exact hhold), ⟨rfl, ?_⟩, ?_⟩ <;> rw [hop]
    · exact onlyCh_setCh ..
    · simp [m]
  case emergency =>
    intro hdue hlate hplan hretrain honline hidle
    have hop := emergencyRetrain_late hdue hlate hplan hretrain honline hidle
    rw [retrainStart_online (by simpa [getCh_raise] using honline)] at hop
    refine ⟨_, exec_emergencyRetrain hc s, ?_, ?_, fun j hj => ?_⟩ <;> rw [hop]
    · rfl
    · simp [getCh_raise, m]
    · simp [getCh_raise, getCh_setCh, hj]
  case online =>
    intro hretrain hagain hppr
    have hop := (retrainDone_ok hretrain).trans (endHold_online (by simpa [trainedCh] using hagain) (by simpa [trainedCh] using hppr))
    refine ⟨_, exec_retrainDone hc s true, ⟨rfl, ?_⟩, ?_⟩ <;> rw [hop]
    · exact onlyCh_trans (onlyCh_setCh ..) (onlyCh_setCh ..)
    · simp [trainedCh, m]
  case fails =>
    intro hretrain
    have hop := retrainDone_fails hretrain
    refine ⟨_, exec_retrainDone hc s false, rfl, ?_⟩
    rw [hop]
    exact ⟨by simp [trainFails, getCh_raise], by simp [trainFails, getCh_raise], trainFails_faultQ ..⟩
  case due =>
    intro t htrained hdue
    obtain ⟨x, hop, htemp, hdue'⟩ := retrainDue_trained t htrained hdue
    refine ⟨_, exec_retrainDue hc s t, ⟨rfl, ?_⟩, ?_⟩ <;> rw [hop]
    · exact onlyCh_setCh ..
    · simp [htemp, hdue', m]

end Sys2Proof.Proofs
end

section
/-! What the errors of a read block bring about (R353, R354, R360 to R364): counts, marks, failing rows and retired pages, none of which
touch the blocks themselves. -/

namespace Sys2Proof.Proofs
open Sys2Proof.Machine

/-! ## What stays -/

/-- Nothing was put out, and the stored bytes, the address map and the places of remapped rows are as they were. -/
structure KeepsBlocks (w v : Work) : Prop where
  dram : v.dram = w.dram
  out : v.out = w.out
  spread : v.spread = w.spread
  remaps : ∀ j, (getCh v j).remaps = (getCh w j).remaps

/-- Beside those, no uncorrectable block was counted. -/
structure KeepsUe (w v : Work) : Prop extends KeepsBlocks w v where
  ue : ∀ j, (getCh v j).ue = (getCh w j).ue
  chUe : ∀ j, (getCh v j).chUe = (getCh w j).chUe

theorem KeepsBlocks.trans {w v u : Work} (hv : KeepsBlocks w v) (hu : KeepsBlocks v u) : KeepsBlocks w u where
  dram := hu.dram.trans hv.dram
  out := hu.out.trans hv.out
  spread := hu.spread.trans hv.spread
  remaps j := (hu.remaps j).trans (hv.remaps j)

/-- A change beside DRAM, the channels and what is put out. -/
theorem KeepsUe.of_eq {w v : Work} (hdram : v.dram = w.dram) (hout : v.out = w.out) (hspread : v.spread = w.spread)
    (hchs : v.chs = w.chs) : KeepsUe w v where
  dram := hdram
  out := hout
  spread := hspread
  remaps j := by rw [getCh, getCh, hchs]
  ue j := by rw [getCh, getCh, hchs]
  chUe j := by rw [getCh, getCh, hchs]

theorem KeepsUe.refl (w : Work) : KeepsUe w w := .of_eq rfl rfl rfl rfl

theorem KeepsUe.trans {w v u : Work} (hv : KeepsUe w v) (hu : KeepsUe v u) : KeepsUe w u where
  toKeepsBlocks := hv.toKeepsBlocks.trans hu.toKeepsBlocks
  ue j := (hu.ue j).trans (hv.ue j)
  chUe j := (hu.chUe j).trans (hv.chUe j)

theorem KeepsUe.ite {p : Prop} [Decidable p] {w v u : Work} (hv : KeepsUe w v) (hu : KeepsUe w u) : KeepsUe w (if p then v else u) := by
  split
  case isTrue => exact hv
  case isFalse => exact hu

theorem KeepsUe.foldl {α : Type} {f : Work → α → Work} (hf : ∀ w a, KeepsUe w (f w a)) :
    ∀ (l : List α) (w : Work), KeepsUe w (l.foldl f w)
  | [], w => .refl w
  | a :: l, w => (hf w a).trans (KeepsUe.foldl hf l (f w a))

/-- What a replaced channel shares with the old one, every channel shares with its old self. -/
theorem getCh_setCh_shared {α : Type} {w : Work} {c : Nat} {m : MemCh} (f : MemCh → α) (hshared : f m = f (getCh w c)) (j : Nat) :
    f (getCh (setCh w c m) j) = f (getCh w j) := by
  rw [getCh_setCh]
  split
  case isTrue h => rw [h, hshared]
  case isFalse => rfl

theorem keepsBlocks_setCh {w : Work} {c : Nat} {m : MemCh} (hremaps : m.remaps = (getCh w c).remaps) : KeepsBlocks w (setCh w c m) where
  dram := rfl
  out := rfl
  spread := rfl
  remaps := getCh_setCh_shared MemCh.remaps hremaps

theorem keepsUe_setCh {w : Work} {c : Nat} {m : MemCh} (hremaps : m.remaps = (getCh w c).remaps) (hue : m.ue = (getCh w c).ue)
    (hchUe : m.chUe = (getCh w c).chUe) : KeepsUe w (setCh w c m) where
  toKeepsBlocks := keepsBlocks_setCh hremaps
  ue := getCh_setCh_shared MemCh.ue hue
  chUe := getCh_setCh_shared MemCh.chUe hchUe

theorem KeepsUe.raised {w v : Work} {src : BitVec 16} {kind ten addr : Nat} (hv : KeepsUe w v) :
    KeepsUe w (raise v src kind ten addr) :=
  hv.trans (.of_eq (raise_dram ..) (raise_out ..) (raise_spread ..) (raise_chs ..))

/-! ## Counts and marks (R353, R354) -/

theorem keepsUe_lastErrVal (w : Work) (x : Nat) (r : EccRead) : KeepsUe w (lastErrVal w x r).2 := by
  unfold lastErrVal
  dsimp only
  split
  case isTrue => exact .of_eq rfl rfl rfl rfl
  case isFalse => exact .refl w

theorem keepsUe_countPins (w : Work) (c : Nat) (js : List Nat) : KeepsUe w (countPins w c js) := keepsUe_setCh rfl rfl rfl

theorem keepsUe_countRow (w : Work) (c x : Nat) (js : List Nat) : KeepsUe w (countRow w c x js).1 := keepsUe_setCh rfl rfl rfl

theorem keepsUe_markDev (w : Work) (c rank dev : Nat) : KeepsUe w (markDev w c rank dev) :=
  .ite (.refl w) (.raised (keepsUe_setCh rfl rfl rfl))

theorem keepsUe_autoMark (w : Work) (c rank : Nat) (js : List Nat) : KeepsUe w (autoMark w c rank js) := by
  unfold autoMark
  split
  case h_1 => exact .ite (keepsUe_markDev ..) (.refl w)
  case h_2 => exact .refl w

theorem keepsUe_limitMark (w : Work) (c rank : Nat) : KeepsUe w (limitMark w c rank) :=
  .foldl (fun v _ => .ite (keepsUe_markDev ..) (.refl v)) _ w

theorem keepsUe_markReads (w : Work) (c rank : Nat) (r : EccRead) : KeepsUe w (markReads w c rank r) :=
  ((keepsUe_autoMark w c rank r.fix0).trans (keepsUe_autoMark _ c rank r.fix1)).trans (keepsUe_limitMark _ c rank)

/-! ## Rows and pages (R362, R364) -/

theorem keepsUe_retirePage (c : Nat) (w : Work) (x : Nat) : KeepsUe w (retirePage c w x) := by
  unfold retirePage
  split
  case h_1 => exact .refl w
  case h_2 => exact .ite (.refl w) (.raised (.of_eq rfl rfl rfl rfl))

theorem keepsUe_rowFails (w : Work) (c x : Nat) (js : List Nat) : KeepsUe w (rowFails w c x js) :=
  .ite (keepsUe_setCh rfl rfl rfl) (.ite (.foldl (keepsUe_retirePage c) _ w) (keepsUe_setCh rfl rfl rfl))

/-! ## The outcome of a read -/

section Outcome
variable (w : Work) (c x ten : Nat) {r : EccRead}

/-- A block without symbols in error brings about nothing. -/
theorem eccOutcome_clean (hue : r.ue = false) (hfix0 : r.fix0 = []) (hfix1 : r.fix1 = []) : eccOutcome w c x ten r = w := by
  simp [eccOutcome, hue, hfix0, hfix1]

/-- A corrected block leaves the blocks, and the counts of uncorrectable ones. -/
theorem keepsUe_eccOutcome (hue : r.ue = false) : KeepsUe w (eccOutcome w c x ten r) := by
  have herr := keepsUe_lastErrVal w x r
  unfold eccOutcome
  generalize lastErrVal w x r = e at herr
  obtain ⟨le, v⟩ := e
  have hpins := herr.trans (keepsUe_countPins v c (r.fix0 ++ r.fix1))
  dsimp only
  generalize countPins v c (r.fix0 ++ r.fix1) = v at hpins
  have hnoted : KeepsUe w (setCh v c { getCh v c with lastErr := le }) := hpins.trans (keepsUe_setCh rfl rfl rfl)
  rw [hue, if_neg Bool.false_ne_true]
  refine .ite (.refl w) (.ite hnoted ?_)
  generalize setCh v c { getCh v c with lastErr := le } = u at hnoted
  have hcounted : KeepsUe w (if r.poison = true then u else
      raise (setCh u c { getCh u c with ce := bump (getCh v c).ce 1, chCe := bump (getCh v c).chCe 1 }) (srcCh c) 0x40 ten x) :=
    .ite hnoted (hnoted.trans (.raised (keepsUe_setCh rfl rfl rfl)))
  have hrow := (hcounted.trans (keepsUe_markReads _ c (rankOf (remapX (getCh w c) x)) r)).trans
    (keepsUe_countRow _ c x (r.fix0 ++ r.fix1))
  exact .ite (hrow.trans (keepsUe_rowFails ..)) hrow

/-- An uncorrectable block is counted, once (R353). -/
theorem eccOutcome_ue (hue : r.ue = true) : ∃ v le, KeepsUe w v ∧
    KeepsUe (setCh v c { getCh v c with ue := bump (getCh v c).ue 1, chUe := bump (getCh v c).chUe 1, lastErr := le })
      (eccOutcome w c x ten r) := by
  refine ⟨countPins (lastErrVal w x r).2 c (r.fix0 ++ r.fix1), (lastErrVal w x r).1,
    (keepsUe_lastErrVal w x r).trans (keepsUe_countPins ..), ?_⟩
  simp only [eccOutcome, hue, Bool.not_true, Bool.false_and, Bool.false_eq_true, if_false, if_true]
  exact ((KeepsUe.raised (.refl _)).trans (keepsUe_markReads ..)).trans (keepsUe_rowFails ..)

/-- Whatever a read shows, the blocks and their places stay. -/
theorem keepsBlocks_eccOutcome (r : EccRead) : KeepsBlocks w (eccOutcome w c x ten r) := by
  cases hue : r.ue with
  | false => exact (keepsUe_eccOutcome w c x ten hue).toKeepsBlocks
  | true =>
    obtain ⟨v, le, hbefore, hafter⟩ := eccOutcome_ue w c x ten hue
    refine (hbefore.toKeepsBlocks.trans ?_).trans hafter.toKeepsBlocks
    exact keepsBlocks_setCh rfl

theorem getCh_eccOutcome_ue (hue : r.ue = true) :
    (getCh (eccOutcome w c x ten r) c).ue = bump (getCh w c).ue 1 ∧
      (getCh (eccOutcome w c x ten r) c).chUe = bump (getCh w c).chUe 1 := by
  obtain ⟨v, le, hbefore, hafter⟩ := eccOutcome_ue w c x ten hue
  rw [hafter.ue, hafter.chUe, getCh_setCh_same, ← hbefore.ue, ← hbefore.chUe]
  exact ⟨rfl, rfl⟩

end Outcome

/-! ## Reads and scrubs -/

theorem paOf_congr {w v : Work} (hspread : v.spread = w.spread) (c x : Nat) : paOf v c x = paOf w c x := by
  simp only [paOf, hspread]

section Units
variable {c : Nat} (hc : c < 24) (s : State) (x : Nat) (err : List (Nat × Byte))
include hc

theorem exec_dramRead : exec (.dramRead c x err) s = .next { s with work := dramRead s.work c x err } :=
  onUnit_go "channel" s (fun s => { s with work := dramRead s.work c x err }) hc

theorem exec_patrolScrub : exec (.patrolScrub c x err) s = .next { s with work := patrolScrub s.work c x err } :=
  onUnit_go "channel" s (fun s => { s with work := patrolScrub s.work c x err }) hc

end Units

section Read
variable {w v : Work} {c x : Nat} {err : List (Nat × Byte)} {r : EccRead} (hblock : x % 128 = 0) (hx : x < 2 ^ 35)
  (hserves : chServes w c x = true) (hshown : showErrs w c x err = v) (hread : eccRead v c x = r)
include hblock hx hserves hshown hread

/-- Whoever asked for a block that its channel serves gets what the channel read (R351). -/
theorem dramRead_served {a : Nat} (hpa : paOf w c x = some a) :
    dramRead w c x err = emit (meterDram (eccOutcome v c x 0 r) (req 2 0)) (.cacheData a r.data r.poison) := by
  have hplace : x / 128 * 128 % 2 ^ 35 = x := by omega
  have hspread : (meterDram (eccOutcome v c x 0 r) (req 2 0)).spread = w.spread := by
    rw [meterDram_eq, (keepsBlocks_eccOutcome v c x 0 r).spread, ← hshown]
    rfl
  simp only [dramRead, hplace, hserves, hshown, chRead, hread, paOf_congr hspread, hpa, Bool.not_true, Bool.false_eq_true, if_false]

variable (hspare : 0x2000000 ≤ x)
include hspare

/-- A scrub outside the spare region writes a corrected block back (R356). -/
theorem patrolScrub_corrected (hue : r.ue = false) (hfix : r.fix0 ++ r.fix1 ≠ []) : patrolScrub w c x err =
    chPut (meterDram (meterDram (eccOutcome v c x 0 r) (req 3 0)) (req 3 0)) c x r.data r.poison := by
  have hplace : x / 128 * 128 % 2 ^ 35 = x := by omega
  have hback : (!r.ue && decide (r.fix0 ++ r.fix1 ≠ [])) = true := by
    rw [hue, decide_eq_true hfix]
    rfl
  simp only [patrolScrub, hplace, hserves, hshown, chRead, hread, Nat.not_lt.mpr hspare, hback, Bool.not_true, Bool.or_self, decide_false,
    Bool.false_eq_true, if_false, if_true]

/-- A scrub of a block with nothing to correct, or that cannot be corrected, only reads it. -/
theorem patrolScrub_read (hstays : r.ue = true ∨ r.fix0 ++ r.fix1 = []) :
    patrolScrub w c x err = meterDram (eccOutcome v c x 0 r) (req 3 0) := by
  have hplace : x / 128 * 128 % 2 ^ 35 = x := by omega
  have hback : (!r.ue && decide (r.fix0 ++ r.fix1 ≠ [])) = false := by
    obtain hue | hfix := hstays
    · simp [hue]
    · simp [hfix]
  simp only [patrolScrub, hplace, hserves, hshown, chRead, hread, Nat.not_lt.mpr hspare, hback, Bool.not_true, Bool.or_self, decide_false,
    Bool.false_eq_true, if_false]

end Read

/-- Settles O38: what a read's errors bring about leaves the blocks, and what goes back is as long as a block. -/
theorem channelReadsDeliverAndCount : Obligations.ChannelReadsDeliverAndCount := by
  intro s c x a err w r hc hblock hspare hx _ honline hrow hshown hread hpa
  have hserves : chServes s.work c x = true := by simp [chServes, honline, hrow]
  have hgives := dramRead_served hblock hx hserves hshown hread hpa
  have hkept := keepsBlocks_eccOutcome w c x 0 r
  have hch : getCh w c = getCh s.work c := by rw [← hshown]; rfl
  have hout : (eccOutcome w c x 0 r).out = s.work.out := by rw [hkept.out, ← hshown]; rfl
  have hdram : (eccOutcome w c x 0 r).dram = s.work.dram := by rw [hkept.dram, ← hshown]; rfl
  rw [exec_dramRead hc, exec_patrolScrub hc, hgives]
  refine ⟨?clean, ?corrected, ?uncorrectable⟩
  case clean =>
    intro hue hfix0 hfix1
    have hscrubs := patrolScrub_read hblock hx hserves hshown hread hspare (.inr (by simp [hfix0, hfix1]))
    rw [hscrubs, eccOutcome_clean w c x 0 hue hfix0 hfix1]
    exact ⟨rfl, rfl⟩
  case corrected =>
    intro hue hfix
    have hscrubs := patrolScrub_corrected hblock hx hserves hshown hread hspare hue hfix
    refine ⟨_, rfl, rfl, ?_⟩
    rw [hscrubs]
    have hplace : remapX (getCh (meterDram (meterDram (eccOutcome w c x 0 r) (req 3 0)) (req 3 0)) c) x =
        remapX (getCh s.work c) x := remapX_congr ((hkept.remaps c).trans (by rw [hch])) x
    have hlength : (if r.poison then marker else r.data).length = 128 := by
      rw [← hread]
      exact writtenBack_decodeAt_length ..
    have hput := chPut_block (meterDram (meterDram (eccOutcome w c x 0 r) (req 3 0)) (req 3 0)) c x hlength
    rw [hplace] at hput
    exact ⟨by rw [chPut_eq]; exact hout, hput⟩
  case uncorrectable =>
    intro hue
    have hscrubs := patrolScrub_read hblock hx hserves hshown hread hspare (.inl hue)
    rw [hscrubs]
    have hcounts := getCh_eccOutcome_ue w c x 0 hue
    rw [hch] at hcounts
    have hzeros : r.data = zeros 128 ∧ r.poison = true := by
      rw [← hread] at hue ⊢
      exact decodeAt_ue hue
    refine ⟨⟨_, rfl, rfl, ?_, hdram, hcounts⟩, ⟨_, rfl, rfl, hout, hdram, hcounts.1⟩⟩
    rw [hzeros.1, hzeros.2]
    exact congrArg (· ++ [Out.cacheData a (zeros 128) true]) hout

end Sys2Proof.Proofs
end

section
/-! Offset measurements of Installation Time (R374, R375, R378): which correction each makes, by the state of IT. -/

namespace Sys2Proof.Proofs
open Sys2Proof.Machine

/-! ## Corrections -/

/-- IT with an offset taken down, before it is corrected. -/
def measured (s : State) (off : Int) : State :=
  { s with it := { s.it with offset := off, good := if off.natAbs ≤ 100 then s.it.good + 1 else 0 } }

@[simp] theorem slewLimit_measured (s : State) (off : Int) : slewLimit (measured s off) = slewLimit s := rfl

theorem slewLimit_nonneg (s : State) : 0 ≤ slewLimit s := Int.natCast_nonneg _

/-- An offset not beyond the limit backward is one of the limit or one beyond it forward. -/
theorem within_or_forward {s : State} {off : Int} (hback : -(slewLimit s) ≤ off) :
    off.natAbs ≤ (slewLimit s).natAbs ∨ slewLimit s < off := by omega

theorem correct_within {s : State} {off : Int} (hoff : off.natAbs ≤ (slewLimit s).natAbs) :
    correct s off = { s with it := { s.it with slew := off * 1000 } } := if_pos hoff

theorem correct_forward {s : State} {off : Int} (hoff : slewLimit s < off) :
    correct s off = { moveIt s (off / 100) with it := { s.it with slew := off % 100 * 1000 } } := by
  have hlimit := slewLimit_nonneg s
  rw [correct, if_neg (by omega), if_pos (by omega)]
  rfl

/-- A correction changes the slew and the time, and nothing else. -/
theorem correct_eq {s : State} {off : Int} :
    ∃ slew now, correct s off = { s with it := { s.it with slew := slew }, work := { s.work with now := now } } := by
  unfold correct
  split
  · exact ⟨_, _, rfl⟩
  · split
    · exact ⟨_, _, rfl⟩
    · exact ⟨_, _, rfl⟩

/-- A forward step adds whole ticks (log entry 98). -/
theorem moveIt_forward (s : State) {ticks : Int} (hticks : 0 ≤ ticks) :
    (moveIt s ticks).work = { s.work with now := BitVec.ofNat 64 (s.work.now.toNat + ticks.toNat) } := by
  have hsum : ((s.work.now.toNat : Int) + ticks).toNat = s.work.now.toNat + ticks.toNat := by omega
  simp only [moveIt, hsum]

/-- The fault is contained, so the collector gets it (R378, R503). -/
theorem diverge_eq (s : State) : diverge s = { s with
    it := { s.it with state := .diverged, good := 0 }, misc := { s.misc with diverged := BitVec.allOnes 16 }
    work := { s.work with faultQ := s.work.faultQ ++ [faultMsg s.work.now srcIt 0x72 0 (ofInt 32 s.it.offset)] } } := by
  simp only [diverge, itFault, raise_keeps _ _ _ _ _ (show BitVec.ofNat 2 (kindClass 0x72) ≠ 0 by decide)]

/-! ## Measurements -/

/-- What an offset that has been taken down brings about, by the state that IT is in (Table 12.2). -/
def answered (t : State) (off : Int) : ItSt → State
  | .free => t
  | .diverged =>
    let u := correct t off
    if off.natAbs ≤ (slewLimit t).natAbs then { u with it := { u.it with state := .locked, lockedFor := 0 } } else u
  | .locked => if off < -(slewLimit t) then diverge t else correct t off
  | .acquiring | .holdover | .expired =>
    let u := correct t off
    if off < -(slewLimit t) then diverge t
    else if 16 ≤ t.it.good then { u with it := { u.it with state := .locked, holdFor := 0, lockedFor := 0 } } else u

theorem measure_eq (s : State) (off : Int) : Machine.measure s off = answered (measured s off) off s.it.state := by
  cases hstate : s.it.state <;> simp [Machine.measure, answered, measured, hstate]

/-- Whatever the state, the offset taken down stays, and the queue of commands. -/
theorem answered_keeps (t : State) (off : Int) (st : ItSt) :
    (answered t off st).it.offset = t.it.offset ∧ (answered t off st).pending = t.pending := by
  have hcorrect : (correct t off).it.offset = t.it.offset ∧ (correct t off).pending = t.pending := by
    obtain ⟨slew, now, heq⟩ := correct_eq (s := t) (off := off)
    rw [heq]
    exact ⟨rfl, rfl⟩
  have hdiverge : (diverge t).it.offset = t.it.offset ∧ (diverge t).pending = t.pending := ⟨rfl, rfl⟩
  cases st with
  | free => exact ⟨rfl, rfl⟩
  | locked =>
    rw [answered]
    split
    · exact hdiverge
    · exact hcorrect
  | diverged =>
    rw [answered]
    split <;> exact hcorrect
  | acquiring | holdover | expired =>
    rw [answered]
    split
    · exact hdiverge
    · split <;> exact hcorrect

section Measure
variable {s : State} {off : Int}

theorem measure_locked (hlocked : s.it.state = .locked) : Machine.measure s off =
    if off < -(slewLimit s) then diverge (measured s off) else correct (measured s off) off := by
  rw [measure_eq, hlocked]
  rfl

/-- Sixteen good measurements in a row lock an IT that acquires (R375). -/
theorem measure_acquiring (hacquiring : s.it.state = .acquiring) (hoff : -(slewLimit s) ≤ off) : Machine.measure s off =
    let u := correct (measured s off) off
    if 16 ≤ (measured s off).it.good then { u with it := { u.it with state := .locked, holdFor := 0, lockedFor := 0 } } else u := by
  rw [measure_eq, hacquiring]
  exact if_neg (Int.not_lt.mpr hoff)

end Measure

/-! ## The sources of measurements -/

theorem ref1pps_edge {s : State} {r : W64} {ns : Int} (hsource : itSource s = 1) (hsec : s.it.refSec = some r) :
    let sec := if s.it.refNew then r else r + 1 + BitVec.ofNat 64 (missedEdges s.it)
    ref1pps s true ns = Machine.measure { s with it := { s.it with edgeAge := 0, refSec := some sec, refNew := false } }
      ((sec.toNat : Int) * 1000000000 - (s.work.now.toNat : Int) * 100 + ns) := by
  simp [ref1pps, hsource, hsec]

/-- A one-step Sync of the master followed gives an offset; a two-step one waits for its Follow_Up (Table 12.1). -/
theorem ptpSync_master {s : State} {master : W64} (hmaster : fromMaster s master = true) (twoStep : Bool) (t1 t2 : Nat) :
    ptpSync s master (od s.work 0x800B) twoStep t1 t2 =
      if twoStep then { s with it := { s.it with ptpT1 := some t2 } } else syncMeasure s t1 t2 := by
  simp [ptpSync, hmaster]

theorem ptpFollowUp_master {s : State} {master : W64} {t1 t2 : Nat} (hmaster : fromMaster s master = true)
    (hsync : s.it.ptpT1 = some t2) : ptpFollowUp s master t1 = syncMeasure s t1 t2 := by
  simp [ptpFollowUp, hmaster, hsync]

/-- Settles O43: a command of a source measures, and a measurement is a slew, a step or a divergence by where its offset lies. -/
theorem offsetsSlewStepOrDiverge : Obligations.OffsetsSlewStepOrDiverge := by
  refine ⟨fun s r ns hsource hsec => ?edge, fun s master t1 t2 hmaster => ?ptp, fun s off => ?offset⟩
  case edge => exact congrArg Host.Outcome.next (ref1pps_edge hsource hsec)
  case ptp =>
    have hsync := ptpSync_master hmaster
    exact ⟨congrArg Host.Outcome.next (hsync false t1 t2), fun ht2 => congrArg Host.Outcome.next (ptpFollowUp_master hmaster ht2),
      congrArg Host.Outcome.next (hsync true t1 t2)⟩
  case offset =>
    obtain ⟨hoffset, hpending⟩ := answered_keeps (measured s off) off s.it.state
    have hlimit := slewLimit_nonneg s
    rw [← measure_eq] at hoffset hpending
    refine ⟨hoffset, hpending, fun hlocked hoff => ?within, fun hlocked hoff => ?forward, fun hlocked hoff => ?back,
      fun hacquiring hgood hoff hcount => ?locks, fun hacquiring hgood hoff hcount => ?acquires⟩
    case within =>
      rw [measure_locked hlocked, if_neg (by omega), correct_within (by exact hoff)]
      exact ⟨hlocked, rfl, rfl⟩
    case forward =>
      rw [measure_locked hlocked, if_neg (by omega), correct_forward (by exact hoff)]
      exact ⟨hlocked, rfl, moveIt_forward _ (by omega)⟩
    case back =>
      rw [measure_locked hlocked, if_pos hoff, diverge_eq]
      exact ⟨rfl, rfl, rfl⟩
    case locks =>
      rw [measure_acquiring hacquiring hoff, if_pos (by simp [measured, hgood]; omega)]
    case acquires =>
      obtain ⟨slew, now, hcorrect⟩ := correct_eq (s := measured s off) (off := off)
      rw [measure_acquiring hacquiring hoff, if_neg (by simp [measured, hgood]; omega), hcorrect]
      exact ⟨hacquiring, if_pos hgood⟩

end Sys2Proof.Proofs
end

section
/-! Objects written through a bank that reaches Basecamp (R408 to R413): a write that passes every check is its act. -/

namespace Sys2Proof.Proofs
open Sys2Proof.Machine

/-! ## Bytes of a number -/

@[simp] theorem length_natLe (n v : Nat) : (natLe n v).length = n := by
  induction n generalizing v with
  | zero => rfl
  | succ n ih => simp [natLe, ih]

theorem leNat_natLe (n v : Nat) : leNat (natLe n v) = v % 256 ^ n := by
  induction n generalizing v with
  | zero => simp [natLe, leNat, Nat.mod_one]
  | succ n ih => rw [natLe, leNat, ih, BitVec.toNat_ofNat, show 2 ^ 8 = 256 from rfl, Nat.pow_succ', Nat.mod_mul]

theorem leNat_natLe_of_lt {n v : Nat} (hv : v < 256 ^ n) : leNat (natLe n v) = v := by rw [leNat_natLe, Nat.mod_eq_of_lt hv]

/-! ## Writes that are carried out -/

/-- A message that leaves the configuration state leaves nothing for its end. -/
theorem finishAct_same {s t : State} (hcfg : t.cfg = s.cfg) : finishAct s t = t := by
  by_cases hphase : s.cfg.phase = 2 <;> simp [finishAct, hcfg, hphase]

section Open
variable {s : State} {b : Bank} (hopen : s.objectsOpen b)
include hopen

theorem odWrite_open (idx sub : Nat) (data : List Byte) :
    odWrite s (bankAgent b) idx sub data = finishAct s (writeObj s (bankAgent b) idx sub 0 data).1 := by
  obtain ⟨hreach, -, -, -, hfwding, -⟩ := hopen
  simp [odWrite, forwardMsg, hreach, hfwding]

/-- A command that is an object write is what becomes of the write, when the configuration stays and no hold is met. -/
theorem settleS_odWrite {cmd : Instr} {idx sub : Nat} {data : List Byte} {t : State} {st : Nat} (hsource : sourceOf cmd = none)
    (hwrite : writeObj s (bankAgent b) idx sub 0 data = (t, st)) (hcfg : t.cfg = s.cfg) (hhold : t.work.hold = s.work.hold) :
    settleS cmd s (odWrite s (bankAgent b) idx sub data) = t := by
  have ht : odWrite s (bankAgent b) idx sub data = t := by rw [odWrite_open hopen, hwrite]; exact finishAct_same hcfg
  obtain ⟨-, -, -, -, -, hnone⟩ := hopen
  rw [ht, settleS_go cmd s t (behind_free _ _ hsource) (hhold.trans hnone)]

/-- The agent of an open bank has every right (R428). -/
theorem odFind_open {idx sub : Nat} {o : Obj} (hidx : idx < 0xF000) (hfind : findObj idx sub = some o) (write : Bool) :
    odFind s (bankAgent b) idx sub write = .ok o := by
  obtain ⟨-, hbusy, hpage, -⟩ := hopen
  have hmay : agentMay (bankAgent b) o sub write = true := by
    cases b with
    | doorbell t => exact absurd rfl (hpage t)
    | host | hostEp | od | basecamp => rfl
  simp [odFind, hbusy, hfind, hmay, Nat.not_le.mpr hidx]

/-- The device's state and role let an open bank write an object that is not tied to a state (R388, R410, R481). -/
theorem stateAllows_open {o : Obj} (sel : Nat) (hwhen : preOrStopped s.work = true ∨ o.acc ≠ .rws) (hcond : o.cond = .none) :
    stateAllows s (bankAgent b) o sel = true := by
  obtain ⟨-, -, -, hown, -⟩ := hopen
  obtain hquiet | hacc := hwhen
  · simp [stateAllows, hcond, hown, hquiet]
  · simp [stateAllows, hcond, hown, hacc]

/-- A write that passes the checks of R410 to R412 acts. -/
theorem writeObj_acts {idx sub off : Nat} {bs : List Byte} {o : Obj} (hidx : idx < 0xF000) (hfind : findObj idx sub = some o)
    (hacts : actsOnWrite idx = true) (hread : readOnly o (objSel s (bankAgent b).bank o.sel) = false) (habsent : odAbsent s o sub = false)
    (hstate : stateAllows s (bankAgent b) o (objSel s (bankAgent b).bank o.sel) = true) (hlength : lengthOk o off bs.length = true)
    (hrange : rangeOk s o (bankAgent b).bank (leNat bs) = true) :
    writeObj s (bankAgent b) idx sub off bs = writeActs s (bankAgent b) o (objSel s (bankAgent b).bank o.sel) off bs := by
  simp [writeObj, odFind_open hopen hidx hfind, hread, habsent, hstate, hlength, hrange, hacts]

end Open

end Sys2Proof.Proofs
end

section
/-! Objects of Installation Time and of the Event Table (Table 12.6) written through an open bank. -/

namespace Sys2Proof.Proofs
open Sys2Proof.Machine

section Open
variable {s : State} {b : Bank} (hopen : s.objectsOpen b)
include hopen

theorem writeObj_itSource {v : Nat} (hv : v ≤ 4) (hstate : preOrStopped s.work = true) :
    writeObj s (bankAgent b) 0x8001 0 0 (natLe 1 v) = (setItSource s v, stOk) := by
  have hval : leNat (natLe 1 v) = v := leNat_natLe_of_lt (by omega)
  rw [writeObj_acts hopen (o := ob 0x8001 (.u 1) .rws 0 0 4) (by decide) rfl rfl rfl rfl (stateAllows_open hopen _ (.inl hstate) rfl) rfl
    (by simp [rangeOk, rangeExtra, OTy.value, hval, ob]; omega)]
  simp [writeActs, hval, ob]

theorem writeObj_itCmd : writeObj s (bankAgent b) 0x800A 0 0 [1] =
    if s.work.dstate = .init || preOrStopped s.work then (stepBack s, stOk) else (s, stWrongState) := by
  rw [writeObj_acts hopen (o := obW 0x800A 1 1) (by decide) rfl rfl rfl rfl (stateAllows_open hopen _ (.inr (by decide)) rfl) rfl rfl]
  rfl

theorem writeObj_itRefSeconds (v : W64) : writeObj s (bankAgent b) 0x800C 0 0 (natLe 8 v.toNat) = (setRefSeconds s v, stOk) := by
  have hval : leNat (natLe 8 v.toNat) = v.toNat := leNat_natLe_of_lt v.isLt
  have hv := v.isLt
  rw [writeObj_acts hopen (o := obF 0x800C (.u 8) .wo 0 .one false) (by decide) rfl rfl rfl rfl (stateAllows_open hopen _ (.inr (by decide)) rfl) rfl
    (by simp [rangeOk, rangeExtra, OTy.value, OTy.full, hval, obF, ob]; omega)]
  simp [writeActs, hval, obF, ob]

theorem writeObj_eventEntry (v : BitVec 256) : writeObj s (bankAgent b) 0x8011 0 0 (natLe 32 v.toNat) =
    eventWrite (bankAgent b = .basecamp) s (selObj s (bankAgent b).bank 0x8010) v := by
  have hval : leNat (natLe 32 v.toNat) = v.toNat := leNat_natLe_of_lt v.isLt
  rw [writeObj_acts hopen (o := obF 0x8011 (.blob 32) .rw 0 .event false) (by decide) rfl rfl rfl rfl
    (stateAllows_open hopen _ (.inr (by decide)) rfl) rfl rfl]
  simp [writeActs, hval, obF, ob, objSel]

end Open

/-! ## STEP (R378) -/

theorem itStep_diverged {s : State} (hdiverged : s.it.state = .diverged) (hstopped : s.work.dstate = .stopped) : itStep s =
    let back := min s.it.offset 0
    { moveIt s (back / 100) with
      it := { s.it with state := .locked, lockedFor := 0, slew := if back < 0 then back % 100 * 1000 else s.it.slew }
      misc := { s.misc with diverged := BitVec.allOnes 16 } } := by
  simp [itStep, hdiverged, hstopped, moveIt]

/-- Beside IT's step only entries of the Event Table are armed again. -/
theorem stepBack_eq (s : State) : ∃ ev, stepBack s = { itStep s with ev := ev } := by
  unfold stepBack
  dsimp only
  split
  · exact ⟨_, rfl⟩
  · exact ⟨(itStep s).ev, rfl⟩

end Sys2Proof.Proofs
end

section
/-! The other commands of Installation Time (R373, R375, R378, R387, R535, R564). -/

namespace Sys2Proof.Proofs
open Sys2Proof.Machine

/-! ## Lost sources and holdover -/

/-- A lost source ends a lock (R375). -/
theorem sourceLost_locked {s : State} (hlocked : s.it.state = .locked) : sourceLost s = { s with
    work := raise s.work srcIt 0x70 0 0, it := { s.it with state := .holdover, holdFor := 0, good := 0 }
    misc := { s.misc with holdover := BitVec.allOnes 16 } } := if_pos hlocked

/-- The fault is contained, so the collector gets it (R379, R503). -/
theorem itExpiredOp_due {s : State} (hholdover : s.it.state = .holdover) (hdue : od s.work 0x8005 ≤ s.it.holdFor) :
    itExpiredOp s = { s with
      work := { s.work with faultQ := s.work.faultQ ++ [faultMsg s.work.now srcIt 0x71 0 0] }
      it := { s.it with state := .expired }, misc := { s.misc with expired := BitVec.allOnes 16 } } := by
  simp [itExpiredOp, itFault, hholdover, hdue, raise_keeps _ _ _ _ _ (show BitVec.ofNat 2 (kindClass 0x71) ≠ 0 by decide)]

/-! ## PTP (log entry 33) -/

theorem delayReq_master {s : State} {m : PtpMaster} (t3 : Nat) (hsource : itSource s = 2) (hmaster : s.it.ptpMaster = some m) :
    delayReq s t3 = { s with it := { s.it with ptpT3 := some t3 }, work := emit s.work .ptpDelayReq } := by
  simp [delayReq, hsource, hmaster]

theorem delayResp_master {s : State} {master : W64} {t3 : Nat} (t4 : Nat) (hmaster : fromMaster s master = true)
    (hreq : s.it.ptpT3 = some t3) : delayResp s master t4 = { s with it := { s.it with
      ptpT3 := none, ptpDelay := (((s.it.ptpLastT2 : Int) - s.it.ptpLastT1) + ((t4 : Int) - t3)) / 2 } } := by
  simp [delayResp, hreq, hmaster]

/-- While no master is followed, the first one that announces itself in the domain is. -/
theorem ptpAnnounce_first {s : State} (m : PtpMaster) (hnone : s.it.ptpMaster = none) :
    ptpAnnounce s (od s.work 0x800B) m = { s with it := { s.it with ptpMaster := some m, announceAge := 0 } } := by
  simp [ptpAnnounce, hnone]

/-! ## Commands of software -/

section Software
variable {s : State} {b : Bank} (hopen : s.objectsOpen b)
include hopen

/-- STEP of a stopped device that has diverged: whole ticks back (log entry 98), and locked. -/
theorem exec_step_diverged (hdiverged : s.it.state = .diverged) (hstopped : s.work.dstate = .stopped) :
    ∃ t, exec (.step b) s = .next t ∧ t.it.state = .locked ∧ t.work = (moveIt s (min s.it.offset 0 / 100)).work := by
  obtain ⟨ev, hback⟩ := stepBack_eq s
  rw [itStep_diverged hdiverged hstopped] at hback
  have hwrite := writeObj_itCmd hopen
  rw [if_pos (by simp [preOrStopped, hstopped]), hback] at hwrite
  exact ⟨_, congrArg Host.Outcome.next (settleS_odWrite hopen rfl hwrite rfl rfl), rfl, rfl⟩

/-- STEP answers WRONG_STATE in Run (Table 12.6). -/
theorem exec_step_run (hrun : s.work.dstate = .run) : exec (.step b) s = .next s := by
  have hwrite := writeObj_itCmd hopen
  rw [if_neg (by simp [preOrStopped, hrun])] at hwrite
  exact congrArg Host.Outcome.next (settleS_odWrite hopen rfl hwrite rfl rfl)

theorem exec_itrefsecondsWrite (v : W64) : exec (.itrefsecondsWrite b v) s = .next (setRefSeconds s v) :=
  congrArg Host.Outcome.next (settleS_odWrite hopen rfl (writeObj_itRefSeconds hopen v) rfl rfl)

theorem exec_itsourceWrite {v : Nat} (hv : v ≤ 4) (hpreOp : s.work.dstate = .preOp) :
    exec (.itsourceWrite b v) s = .next (setItSource s v) := by
  have hwrite := writeObj_itSource hopen hv (by simp [preOrStopped, hpreOp])
  have hbyte : v < 256 := by omega
  refine congrArg Host.Outcome.next ?_
  rw [if_pos hbyte]
  exact settleS_odWrite hopen rfl hwrite rfl rfl

end Software

/-! ## SYSCLK and TIME_PPS_OUT -/

theorem exec_sysclkReturn {s : State} (habsent : s.it.sysclk = false) (hsource : od s.work 0x8001 ≠ 0) :
    exec .sysclkReturn s = .next { s with it := { s.it with sysclk := true, state := .acquiring, good := 0 } } := by
  simp [exec, execSysclkReturn, habsent, hsource]

/-- The pin rises in the 100 ms that follow a whole second (R564). -/
theorem ppsOut_rises {s : State} (hsecond : s.work.now.toNat % 10000000 < 1000000) (hlow : s.it.ppsHigh = false) :
    ppsOut s = { s with it := { s.it with ppsHigh := true }, work := emit s.work (.pin "TIME_PPS_OUT" true) } := by
  simp [ppsOut, hsecond, hlow]

/-- Settles O44: each command is the operation of It.lean that it names, in the case that its clause describes. -/
theorem installationTimeCommands : Obligations.InstallationTimeCommands := by
  intro s
  refine ⟨fun hloss hlocked => ?lost, fun hloss => ?kept, fun hholdover hdue => ?expired, fun t3 m hsource hmaster => ?delayReq,
    fun master t3 t4 hmaster hreq => ?delayResp, fun m hnone => ?announce, fun b hopen => ?software,
    fun habsent hsource => exec_sysclkReturn habsent hsource, ?lowRead, fun hsecond hlow => ?pps⟩
  case lost =>
    have hlost : (if lossHolds s true then sourceLost s else s) = _ := (if_pos hloss).trans (sourceLost_locked hlocked)
    exact ⟨_, congrArg Host.Outcome.next hlost, rfl, rfl, rfl, rfl, rfl⟩
  case kept => exact congrArg Host.Outcome.next (if_neg (by simp [hloss]))
  case expired => exact ⟨_, congrArg Host.Outcome.next (itExpiredOp_due hholdover hdue), rfl, rfl, rfl⟩
  case delayReq => exact ⟨_, congrArg Host.Outcome.next (delayReq_master t3 hsource hmaster), rfl, rfl⟩
  case delayResp => exact ⟨_, congrArg Host.Outcome.next (delayResp_master t4 hmaster hreq), rfl, rfl⟩
  case announce => exact congrArg Host.Outcome.next (ptpAnnounce_first m hnone)
  case software =>
    exact ⟨exec_step_diverged hopen, exec_step_run hopen, exec_itrefsecondsWrite hopen, fun v hv hpreOp =>
      ⟨_, exec_itsourceWrite hopen hv hpreOp, od_setOd_same .., rfl, rfl, rfl⟩⟩
  case lowRead => exact ⟨_, rfl, rfl, Tab.get_set_same ..⟩
  case pps => exact congrArg Host.Outcome.next (ppsOut_rises hsecond hlow)

end Sys2Proof.Proofs
end

section
/-! The Event Table (R381 to R384): writes of an entry, and the firing of the first due entry. -/

namespace Sys2Proof.Proofs
open Sys2Proof.Machine

/-! ## Writes (R382) -/

/-- An entry that would fire within ten ticks of IT: neither it nor a write over it is taken (R382). -/
def firesSoon (s : State) (e : EvEntry) : Prop := e.action ≠ 0 ∧ e.tick.toNat ≤ s.work.now.toNat + 10

section Write
variable {s : State} {k : Nat} {v : BitVec 256} (basecamp : Bool)

theorem eventWrite_tooLate (hsoon : firesSoon s (parseEvent v) ∨ firesSoon s (Tab.get evD s.ev.table k)) :
    eventWrite basecamp s k v = (s, stTooLate) := by
  simp only [firesSoon] at hsoon
  exact if_pos (by simpa using hsoon)

theorem eventWrite_taken (hnew : ¬ firesSoon s (parseEvent v)) (hold : ¬ firesSoon s (Tab.get evD s.ev.table k))
    (hreserved : eventReserved v = false)
    (howner : basecamp = false → (parseEvent v).bcamp = false ∧ (Tab.get evD s.ev.table k).bcamp = false) :
    eventWrite basecamp s k v = ({ s with ev := { s.ev with table := Tab.set evD s.ev.table k (parseEvent v) } }, stOk) := by
  simp only [firesSoon] at hnew hold
  have hsoon : ¬ ((parseEvent v).action ≠ 0 ∧ (parseEvent v).tick.toNat ≤ s.work.now.toNat + 10 ∨
      (Tab.get evD s.ev.table k).action ≠ 0 ∧ (Tab.get evD s.ev.table k).tick.toNat ≤ s.work.now.toNat + 10) := not_or.mpr ⟨hnew, hold⟩
  refine (if_neg (by simpa using hsoon)).trans ?_
  cases basecamp with
  | true => simp [hreserved]
  | false => simp [hreserved, howner rfl]

end Write

/-- A write of EventEntry by an open bank is judged as R382 says, for the entry that the bank has selected. -/
theorem exec_eventEntryWrite {s t : State} {b : Bank} {v : BitVec 256} {st : Nat} (hopen : s.objectsOpen b)
    (hwrite : eventWrite (bankAgent b = .basecamp) s (selObj s (bankAgent b).bank 0x8010) v = (t, st))
    (hcfg : t.cfg = s.cfg) (hwork : t.work = s.work) : exec (.eventEntryWrite b v) s = .next t :=
  congrArg Host.Outcome.next
    (settleS_odWrite hopen rfl ((writeObj_eventEntry hopen v).trans hwrite) hcfg (congrArg Work.hold hwork))

theorem bankAgent_basecamp {b : Bank} : bankAgent b = .basecamp ↔ b = .basecamp := by cases b <;> simp [bankAgent]

/-! ## Firing (R383) -/

theorem exec_eventFire_first {s : State} {k : Nat} (hk : k < 4096) (hfirst : eventFirst s k = true) :
    exec (.eventFire k) s = .next (fireEntry s k) :=
  (onUnit_next ..).mpr ⟨hk, by simp [hfirst]⟩

/-- The first entry that fires is due: it holds an action, and IT has reached its tick. -/
theorem tick_le_now_of_eventFirst {s : State} {k : Nat} (hfirst : eventFirst s k = true) :
    (Tab.get evD s.ev.table k).tick.toNat ≤ s.work.now.toNat := by
  simp only [eventFirst, eventDue, Bool.and_eq_true, decide_eq_true_eq] at hfirst
  obtain ⟨⟨⟨⟨⟨-, hreached⟩, -⟩, -⟩, -⟩, -⟩ := hfirst
  exact hreached

theorem reschedule_once {now : Nat} {e : EvEntry} (hperiod : e.period = 0) : reschedule now e = (EvEntry.free, 0) := by
  simp [reschedule, hperiod]

/-- An entry without end moves by whole periods to its first tick beyond IT. -/
theorem reschedule_endless {now : Nat} {e : EvEntry} (hperiod : 0 < e.period.toNat) (hrept : e.rept = 0)
    (hdue : e.tick.toNat ≤ now) (hfits : now + e.period.toNat < 2 ^ 64) :
    ∃ tick missed, reschedule now e = ({ e with tick := tick }, missed) ∧ now < tick.toNat ∧ tick.toNat ≤ now + e.period.toNat := by
  have hdiv := Nat.div_add_mod (now - e.tick.toNat) e.period.toNat
  have hmod := Nat.mod_lt (now - e.tick.toNat) hperiod
  have hnext : ((now - e.tick.toNat) / e.period.toNat + 1) * e.period.toNat =
      e.period.toNat * ((now - e.tick.toNat) / e.period.toNat) + e.period.toNat := by
    rw [Nat.succ_mul, Nat.mul_comm]
  refine ⟨BitVec.ofNat 64 (e.tick.toNat + ((now - e.tick.toNat) / e.period.toNat + 1) * e.period.toNat),
    (now - e.tick.toNat) / e.period.toNat, ?_, ?_⟩
  · simp [reschedule, Nat.ne_of_gt hperiod, hrept]
  · rw [BitVec.toNat_ofNat, hnext, Nat.mod_eq_of_lt (by omega)]
    omega

/-- The state in which a fired entry's action runs: the entry freed or moved, its missed firings counted. -/
def consumed (s : State) (k : Nat) : State :=
  let r := reschedule s.work.now.toNat (Tab.get evD s.ev.table k)
  { s with ev := { s.ev with table := Tab.set evD s.ev.table k r.1, missed := bump s.ev.missed r.2 } }

/-- An entry that is not Basecamp's and whose action is not refused is consumed, and its action runs. -/
theorem fireEntry_runs {s t : State} {k : Nat} (hbcamp : (Tab.get evD s.ev.table k).bcamp = false)
    (hruns : runAction (consumed s k) (Tab.get evD s.ev.table k) = (t, true)) : fireEntry s k = t := by
  simp only [consumed] at hruns
  simp [fireEntry, hruns, rearm, hbcamp]

theorem get_of_table_set {t t' : Tab EvEntry} {k : Nat} {e : EvEntry} (htable : t' = Tab.set evD t k e) :
    Tab.get evD t' k = e ∧ ∀ j, j ≠ k → Tab.get evD t' j = Tab.get evD t j := by
  subst htable
  exact ⟨Tab.get_set_same .., fun j hj => Tab.get_set_ne _ _ _ hj⟩

/-- An increment other than 0 is posted (R280). -/
theorem agentPost_posts (w : Work) (kind : Nat) (belay : BitVec 16) {inc : W32} (hinc : inc ≠ 0) :
    (agentPost w kind belay.toNat inc.toNat).posts =
      w.posts ++ [{ belay := belay.toNat, inc := inc, sig := sigKind w kind, crag := none, reply := none }] := by
  have hbelay : belay.toNat % 65536 = belay.toNat := Nat.mod_eq_of_lt belay.isLt
  have hsmall : inc.toNat % 2 ^ 32 = inc.toNat := Nat.mod_eq_of_lt inc.isLt
  have hne : inc.toNat ≠ 0 := fun hzero => hinc (BitVec.eq_of_toNat_eq hzero)
  rw [agentPost, hbelay, hsmall, if_neg hne, sendPost, BitVec.ofNat_toNat, BitVec.setWidth_eq]

/-- Settles O45: a write is taken unless an entry fires too soon; a fired entry is consumed before its action runs. -/
theorem eventsAreWrittenAndFire : Obligations.EventsAreWrittenAndFire := by
  refine ⟨fun s b v hopen => ⟨?late, ?taken⟩, fun s k hk hfirst => ?fire⟩
  case late =>
    intro hsoon
    exact exec_eventEntryWrite hopen (eventWrite_tooLate _ hsoon) rfl rfl
  case taken =>
    intro hnew hold hreserved howner
    have htaken := eventWrite_taken (bankAgent b = .basecamp) hnew hold hreserved
      (fun hagent => howner (by simpa [bankAgent_basecamp] using hagent))
    exact ⟨_, exec_eventEntryWrite hopen htaken rfl rfl, rfl, get_of_table_set rfl⟩
  case fire =>
    intro e hbcamp
    refine ⟨fun haction hperiod => ?snapshot, fun haction harg hrept hperiod hfits => ?post⟩
    case snapshot =>
      have hruns : runAction (consumed s k) e = (snapshot (consumed s k) e.tick, true) := by simp [runAction, haction]
      have htable : (consumed s k).ev.table = Tab.set evD s.ev.table k EvEntry.free := by rw [consumed, reschedule_once hperiod]
      refine ⟨_, exec_eventFire_first hk hfirst, ?_⟩
      rw [fireEntry_runs hbcamp hruns]
      obtain ⟨hfreed, hothers⟩ := get_of_table_set htable
      exact ⟨rfl, hfreed, hothers, rfl, rfl, rfl⟩
    case post =>
      have hdue := tick_le_now_of_eventFirst hfirst
      obtain ⟨tick, missed, hmoved, hbeyond, hnear⟩ := reschedule_endless hperiod hrept hdue (by omega)
      have hruns : runAction (consumed s k) e =
          ({ consumed s k with work := agentPost s.work 2 e.arg0.toNat e.arg1.toNat }, true) := by simp [runAction, haction, consumed]
      have htable : (consumed s k).ev.table = Tab.set evD s.ev.table k { e with tick := tick } := by rw [consumed, hmoved]
      refine ⟨_, exec_eventFire_first hk hfirst, ?_⟩
      rw [fireEntry_runs hbcamp hruns]
      obtain ⟨hentry, hothers⟩ := get_of_table_set htable
      refine ⟨agentPost_posts s.work 2 _ harg, ?_, ?_, ?_, hothers⟩ <;> dsimp only <;> rw [hentry]
      · exact hbeyond
      · exact hnear
      · exact haction

end Sys2Proof.Proofs
end

section
/-! The queue of commands under the operations on the whole state. Each of them leaves it: those that reset the device keep it (Reset.lean),
and the others write other parts of the state. -/

namespace Sys2Proof.Proofs
open Sys2Proof.Machine

/-! ## Choices, folds and updates -/

@[simp] theorem pending_ite (p : Prop) [Decidable p] (s t : State) :
    (if p then s else t).pending = if p then s.pending else t.pending := apply_ite ..

@[simp] theorem pending_fst_ite {α : Type} (p : Prop) [Decidable p] (x y : State × α) :
    (if p then x else y).1.pending = if p then x.1.pending else y.1.pending := apply_ite (fun z : State × α => z.1.pending) ..

theorem pending_foldl {α : Type} {f : State → α → State} (hf : ∀ s a, (f s a).pending = s.pending) (l : List α) (s : State) :
    (l.foldl f s).pending = s.pending := by
  induction l generalizing s with
  | nil => rfl
  | cons a l ih => rw [List.foldl_cons, ih, hf]

theorem withWork_pending (s : State) (w : Work) : ({ s with work := w } : State).pending = s.pending := rfl

/-! ## Operations, in the order of the model -/

section Queue
variable (s : State)

/-! ### Commands that wait -/

@[simp] theorem settleS_pending {cmd : Instr} {old new : State} (h : new.pending = old.pending) :
    (settleS cmd old new).pending = old.pending := by
  unfold settleS
  split
  · rfl
  · rfl
  · exact h

theorem onLink_pending {cmd : Instr} {p : Nat} {f : Frame} {g : State → State} (hg : ∀ s, (g s).pending = s.pending) :
    (onLink cmd p f s g).pending = s.pending := by
  unfold onLink
  split
  · rfl
  · split
    · rfl
    · exact settleS_pending (hg _)

/-! ### Memory channels -/

@[simp] theorem emergencyRetrain_pending (c : Nat) : (emergencyRetrain s c).pending = s.pending := by simp [emergencyRetrain]

/-! ### Installation Time -/

@[simp] theorem itFault_pending (kind addr : Nat) : (itFault s kind addr).pending = s.pending := rfl
@[simp] theorem moveIt_pending (ticks : Int) : (moveIt s ticks).pending = s.pending := rfl
@[simp] theorem correct_pending (off : Int) : (correct s off).pending = s.pending := by simp [correct]
@[simp] theorem diverge_pending : (diverge s).pending = s.pending := by simp [diverge]

@[simp] theorem measure_pending (off : Int) : (Machine.measure s off).pending = s.pending := by
  rw [measure_eq]
  exact (answered_keeps (measured s off) off s.it.state).2

@[simp] theorem sourceLost_pending : (sourceLost s).pending = s.pending := by simp [sourceLost]
@[simp] theorem itExpiredOp_pending : (itExpiredOp s).pending = s.pending := by simp [itExpiredOp]

@[simp] theorem ref1pps_pending (present : Bool) (offsetNs : Int) : (ref1pps s present offsetNs).pending = s.pending := by
  cases hsec : s.it.refSec with
  | none => simp [ref1pps, hsec]
  | some r => simp [ref1pps, hsec]

@[simp] theorem syncMeasure_pending (t1 t2 : Nat) : (syncMeasure s t1 t2).pending = s.pending := by simp [syncMeasure]

@[simp] theorem ptpSync_pending (master : W64) (domain : Nat) (twoStep : Bool) (t1 t2 : Nat) :
    (ptpSync s master domain twoStep t1 t2).pending = s.pending := by
  simp [ptpSync]

@[simp] theorem ptpFollowUp_pending (master : W64) (t1 : Nat) : (ptpFollowUp s master t1).pending = s.pending := by
  unfold ptpFollowUp
  split <;> simp

@[simp] theorem delayReq_pending (t3 : Nat) : (delayReq s t3).pending = s.pending := by simp [delayReq]

@[simp] theorem delayResp_pending (master : W64) (t4 : Nat) : (delayResp s master t4).pending = s.pending := by
  unfold delayResp
  split <;> simp

@[simp] theorem ptpAnnounce_pending (domain : Nat) (m : PtpMaster) : (ptpAnnounce s domain m).pending = s.pending := by
  unfold ptpAnnounce
  split
  · rfl
  · split <;> simp

@[simp] theorem itStep_pending : (itStep s).pending = s.pending := by simp [itStep]
@[simp] theorem setRefSeconds_pending (v : W64) : (setRefSeconds s v).pending = s.pending := rfl
@[simp] theorem acquire_pending : (acquire s).pending = s.pending := rfl
@[simp] theorem setItSource_pending (v : Nat) : (setItSource s v).pending = s.pending := by simp [setItSource]
@[simp] theorem followSource_pending (old : Nat) : (followSource old s).pending = s.pending := by simp [followSource]
@[simp] theorem lowRead_pending (off : Nat) : (lowRead s off).pending = s.pending := by simp [lowRead]
@[simp] theorem ppsOut_pending : (ppsOut s).pending = s.pending := by simp [ppsOut]

/-! ### MARK, and the Rope's end -/

@[simp] theorem markEpoch_pending (c n : Nat) : (markEpoch s c n).pending = s.pending := by
  unfold markEpoch
  dsimp only
  split <;> simp

@[simp] theorem dropRope_pending : (dropRope s).pending = s.pending := rfl

/-! ### Resets -/

@[simp] theorem resetWith_pending (k : RKind) (cause : Nat) : (resetWith k cause s).pending = s.pending := by simp [resetWith]
@[simp] theorem commandedReset_pending : (commandedReset s).pending = s.pending := by simp [commandedReset]
@[simp] theorem hardReset_pending (cause : Nat) : (hardReset cause s).pending = s.pending := by simp [hardReset]

/-! ### Configuration versions and firmware -/

@[simp] theorem loadActive_pending : (loadActive s).pending = s.pending := by simp [loadActive]
@[simp] theorem enforce_pending (kind : Nat) (probation : Bool) : (enforce s kind probation).pending = s.pending := by simp [enforce]
@[simp] theorem activateNow_pending : (activateNow s).pending = s.pending := by simp [activateNow]
@[simp] theorem raiseRollback_pending : (raiseRollback s).pending = s.pending := rfl
@[simp] theorem rollback_pending (cause : Nat) : (rollback s cause).pending = s.pending := by simp [rollback]
@[simp] theorem rollbackBoot_pending (cause : Nat) : (rollbackBoot s cause).pending = s.pending := by simp [rollbackBoot]
@[simp] theorem bringUpFail_pending : (bringUpFail s).pending = s.pending := by simp [bringUpFail]
@[simp] theorem cfgResult_pending (st : Nat) : (cfgResult s st).1.pending = s.pending := rfl
@[simp] theorem commitCmd_pending : (commitCmd s).1.pending = s.pending := by simp [commitCmd]
@[simp] theorem deferAct_pending : (deferAct s).pending = s.pending := rfl
@[simp] theorem activateCmd_pending : (activateCmd s).1.pending = s.pending := by simp [activateCmd]
@[simp] theorem confirmCmd_pending : (confirmCmd s).1.pending = s.pending := by simp [confirmCmd]
@[simp] theorem rollbackCmd_pending : (rollbackCmd s).1.pending = s.pending := by simp [rollbackCmd]
@[simp] theorem finishAct_pending (t : State) : (finishAct s t).pending = t.pending := by simp [finishAct]

@[simp] theorem cfgCmd_pending (v : Nat) : (cfgCmd s v).1.pending = s.pending := by
  unfold cfgCmd
  split <;> simp

@[simp] theorem probationEnd_pending : (probationEnd s).pending = s.pending := by simp [probationEnd]
@[simp] theorem cfgActivateAt_pending (n : Nat) (t : W64) : (cfgActivateAt s n t).1.pending = s.pending := by simp [cfgActivateAt]
@[simp] theorem fwWrite_pending (off : Nat) (bs : List Byte) : (fwWrite s off bs).1.pending = s.pending := by simp [fwWrite]
@[simp] theorem restartBasecamp_pending : (restartBasecamp s).pending = s.pending := rfl

@[simp] theorem fwCmd_pending (v : Nat) : (fwCmd s v).1.pending = s.pending := by
  unfold fwCmd
  split
  · rfl
  · split <;> simp

/-! ### Faults and spares -/

@[simp] theorem irq_pending (v : Nat) : (irq s v).pending = s.pending := by simp [irq]
@[simp] theorem irqNow_pending (v : Nat) : (irqNow s v).pending = s.pending := rfl
@[simp] theorem logMsg_pending (m : FaultMsg) : (logMsg s m).pending = s.pending := by simp [logMsg]
@[simp] theorem fatalReact_pending : (fatalReact s).pending = s.pending := by simp [fatalReact]
@[simp] theorem acceptMsg_pending (m : FaultMsg) : (acceptMsg s m).pending = s.pending := by simp [acceptMsg]

@[simp] theorem acceptNext_pending : (acceptNext s).pending = s.pending := by
  unfold acceptNext
  split <;> simp

@[simp] theorem clearValid_pending : (clearValid s).pending = s.pending := rfl
@[simp] theorem clearFatal_pending : (clearFatal s).pending = s.pending := rfl
@[simp] theorem useSpares_pending (die : Nat) (l : List Nat) : (useSpares s die l).pending = s.pending := rfl

@[simp] theorem spareCrag_pending (c : Nat) (failed : List Nat) : (spareCrag s c failed).pending = s.pending := by
  unfold spareCrag
  dsimp only
  split <;> simp

@[simp] theorem sliceDetect_pending (m : FaultMsg) : (sliceDetect s m).pending = s.pending := by
  cases hway : lookupWay (getSlice s.work (sliceOf m.addr.toNat)) m.addr.toNat <;> simp [sliceDetect, hway]

@[simp] theorem flashFail_pending (m : FaultMsg) : (flashFail s m).pending = s.pending := by simp [flashFail]
@[simp] theorem ridgeLaneFail_pending (l : RidgeLane) : (ridgeLaneFail s l).pending = s.pending := by simp [ridgeLaneFail]
@[simp] theorem watchdogMiss_pending : (watchdogMiss s).pending = s.pending := by simp [watchdogMiss]

/-! ### Tenancies -/

@[simp] theorem pairTen_pending (t : Nat) : (pairTen s t).pending = s.pending := by simp [pairTen]
@[simp] theorem openFlags_pending (t : Nat) : (openFlags s t).pending = s.pending := rfl
@[simp] theorem tenEnable_pending (t : Nat) : (tenEnable s t).1.pending = s.pending := by simp [tenEnable]
@[simp] theorem dropEpochs_pending (lead : Nat) : (dropEpochs s lead).pending = s.pending := rfl

@[simp] theorem tenReset_pending (t : Nat) : (tenReset s t).1.pending = s.pending := by
  simp [tenReset, pending_foldl dropEpochs_pending]

@[simp] theorem closeRecord_pending (t : Nat) (final : Bool) : (closeRecord s t final).pending = s.pending := by simp [closeRecord]

@[simp] theorem meterClose_pending : (meterClose s).pending = s.pending := by
  simp [meterClose, pending_foldl fun s t => closeRecord_pending s t false]

@[simp] theorem tenDisable_pending (t : Nat) : (tenDisable s t).1.pending = s.pending := by
  simp [tenDisable, pending_foldl dropEpochs_pending]

@[simp] theorem tenCtrl_pending (t v : Nat) : (tenCtrl s t v).1.pending = s.pending := by
  unfold tenCtrl
  split <;> simp

@[simp] theorem energyMeasure_pending (uj : Nat) (estimates : List (Nat × Nat)) : (energyMeasure s uj estimates).pending = s.pending := rfl

/-! ### Twins -/

@[simp] theorem applyRole_pending : (applyRole s).pending = s.pending := rfl
@[simp] theorem fence_pending : (fence s).pending = s.pending := by simp [fence]
@[simp] theorem promote_pending (newTerm : Bool) : (promote s newTerm).pending = s.pending := by simp [promote]
@[simp] theorem degrade_pending : (degrade s).pending = s.pending := by simp [degrade]
@[simp] theorem sendLease_pending : (sendLease s).pending = s.pending := rfl
@[simp] theorem contest_pending (l : Lease) : (contest s l).pending = s.pending := by simp [contest]
@[simp] theorem fromPrimary_pending (l : Lease) : (fromPrimary s l).pending = s.pending := by simp [fromPrimary]
@[simp] theorem toPrimary_pending (l : Lease) : (toPrimary s l).pending = s.pending := by simp [toPrimary]
@[simp] theorem electPrimary_pending (l : Lease) : (electPrimary s l).pending = s.pending := by simp [electPrimary]
@[simp] theorem takeLease_pending (l : Lease) : (takeLease s l).pending = s.pending := by simp [takeLease]
@[simp] theorem ropeUp_pending (mode seat : Nat) (dev : BitVec 16) : (ropeUp s mode seat dev).pending = s.pending := by simp [ropeUp]
@[simp] theorem ropeLost_pending : (ropeLost s).pending = s.pending := by simp [ropeLost]
@[simp] theorem ropeLaneFail_pending (lane : Nat) : (ropeLaneFail s lane).pending = s.pending := by simp [ropeLaneFail]
@[simp] theorem orphan_pending : (orphan s).pending = s.pending := by simp [orphan]
@[simp] theorem witnessVerdict_pending (v : Nat) : (witnessVerdict s v).1.pending = s.pending := by simp [witnessVerdict]

@[simp] theorem twinCmd_pending (v : Nat) : (twinCmd s v).1.pending = s.pending := by
  unfold twinCmd
  split <;> simp

@[simp] theorem freeDigest_pending (lead : Nat) (e : W64) : (freeDigest s lead e).pending = s.pending := rfl
@[simp] theorem mismatch_pending (t kind epoch : Nat) : (mismatch s t kind epoch).pending = s.pending := rfl

@[simp] theorem findMismatch_pending (lead kind : Nat) (e : W64) : (findMismatch s lead kind e).pending = s.pending := by
  simp [findMismatch]

@[simp] theorem compareOne_pending (d : Nat × W64 × BitVec 128 × W64) : (compareOne s d).pending = s.pending := by simp [compareOne]

@[simp] theorem compareAll_pending : (compareAll s).pending = s.pending := by
  simp [compareAll, pending_foldl compareOne_pending, pending_foldl fun s (d : Nat × W64) => findMismatch_pending s d.1 0x64 d.2]

@[simp] theorem sendDigest_pending (lead : Nat) (e : W64) : (sendDigest s lead e).pending = s.pending := rfl

@[simp] theorem epochAction_pending : (epochAction s).pending = s.pending := by
  simp [epochAction, pending_foldl fun s (d : Nat × W64 × W64) => sendDigest_pending s d.1 d.2.1]

@[simp] theorem takeDigest_pending (f : Frame) : (takeDigest s f).pending = s.pending := by simp [takeDigest]

@[simp] theorem weighTests_pending (t : Nat) : (weighTests s t).pending = s.pending := by
  cases hmine : Tab.get testD s.twin.myTest t with
  | none => simp [weighTests, hmine]
  | some mine =>
    cases hhis : Tab.get testD s.twin.hisTest t with
    | none => simp [weighTests, hmine, hhis]
    | some his => cases mine <;> cases his <;> simp [weighTests, hmine, hhis]

@[simp] theorem selfTestDone_pending (t : Nat) (r : TestResult) : (selfTestDone s t r).pending = s.pending := by simp [selfTestDone]
@[simp] theorem hisResult_pending (t : Nat) (pass : Bool) : (hisResult s t pass).pending = s.pending := by simp [hisResult]
@[simp] theorem lateResults_pending (t : Nat) : (lateResults s t).pending = s.pending := by simp [lateResults]
@[simp] theorem takeCopy_pending (f : Frame) : (takeCopy s f).pending = s.pending := by simp [takeCopy]

/-! ### The Event Table -/

@[simp] theorem eventWrite_pending (basecamp : Bool) (k : Nat) (v : BitVec 256) : (eventWrite basecamp s k v).1.pending = s.pending := by
  simp [eventWrite]

@[simp] theorem armBasecamp_pending : (armBasecamp s).pending = s.pending := rfl
@[simp] theorem stepBack_pending : (stepBack s).pending = s.pending := by simp [stepBack]
@[simp] theorem snapshot_pending (tick : W64) : (snapshot s tick).pending = s.pending := rfl

@[simp] theorem runAction_pending (e : EvEntry) : (runAction s e).1.pending = s.pending := by
  unfold runAction
  split <;> simp

@[simp] theorem rearm_pending (k : Nat) (e : EvEntry) : (rearm s k e).pending = s.pending := by simp [rearm]
@[simp] theorem fireEntry_pending (k : Nat) : (fireEntry s k).pending = s.pending := by simp [fireEntry]

/-! ### DeviceCmd -/

/-- `withWork_pending` leads the kernel to the field; comparing the two states whole, it would unfold their data planes. -/
@[simp] theorem deviceCmd_pending (v : Nat) : (deviceCmd s v).1.pending = s.pending := by
  unfold deviceCmd
  dsimp only
  split
  case h_1 | h_2 | h_4 =>
    rw [pending_fst_ite]
    split <;> exact withWork_pending s _
  case h_9 | h_10 => exact commandedReset_pending s
  all_goals exact withWork_pending s _

/-! ### Objects -/

@[simp] theorem logClear_pending : (logClear s).pending = s.pending := rfl

@[simp] theorem writeActs_pending (a : OdAgent) (o : Obj) (sel off : Nat) (bs : List Byte) :
    (writeActs s a o sel off bs).1.pending = s.pending := by
  unfold writeActs
  split <;> simp

@[simp] theorem writeObj_pending (a : OdAgent) (idx sub off : Nat) (bs : List Byte) :
    (writeObj s a idx sub off bs).1.pending = s.pending := by
  unfold writeObj
  split <;> simp

/-! ### Messages and mailboxes -/

@[simp] theorem performOp_pending (a : OdAgent) (o : MOp) : (performOp a o s).1.pending = s.pending := by simp [performOp]

@[simp] theorem performOps_pending (a : OdAgent) (stop : Bool) (ops : List MOp) (failed : Bool) :
    (performOps a stop ops failed s).1.pending = s.pending := by
  induction ops generalizing failed s with
  | nil => rfl
  | cons o ops ih => simp [performOps, ih]

@[simp] theorem forwardMsg_pending (a : OdAgent) (m : Msg) (bs : List Byte) : (forwardMsg s a m bs).pending = s.pending := by
  simp [forwardMsg]

@[simp] theorem performMsg_pending (a : OdAgent) (m : Msg) (bs : List Byte) : (performMsg s a m bs).1.pending = s.pending := by
  simp [performMsg]

@[simp] theorem odWrite_pending (a : OdAgent) (idx sub : Nat) (data : List Byte) : (odWrite s a idx sub data).pending = s.pending := by
  simp [odWrite]

@[simp] theorem setBox_pending (k : Nat) (b : Mailbox) : (setBox s k b).pending = s.pending := rfl
@[simp] theorem boxDone_pending (k : Nat) (bad : Bool) : (boxDone s k bad).pending = s.pending := by simp [boxDone]

@[simp] theorem boxGo_pending (k : Nat) : (boxGo s k).pending = s.pending := by
  cases hmsg : parseMsg (boxLimit k) false (Mem.read (getBox s k).data 0x100 (boxLimit k)) <;> simp [boxGo, hmsg]

@[simp] theorem mgmtSend_pending (key : List Byte) (d : Datagram) (resp : List Byte) : (mgmtSend key s d resp).pending = s.pending := rfl
@[simp] theorem authFail_pending : (authFail s).pending = s.pending := rfl
@[simp] theorem mgmtSeq_pending (d : Datagram) (m : Msg) : (mgmtSeq s d m).pending = s.pending := by simp [mgmtSeq]

@[simp] theorem fwdFragment_pending (f : Frame) : (fwdFragment s f).pending = s.pending := by
  unfold fwdFragment
  dsimp only
  split
  · rfl
  · split <;> simp

/-! ### Registers of BAR0 -/

@[simp] theorem portWrite_pending (p off v : Nat) : (portWrite s p off v).pending = s.pending := by simp [portWrite]

@[simp] theorem winWrite_pending (bank sel u off v : Nat) : (winWrite s bank sel u off v).pending = s.pending := by
  unfold winWrite
  split <;> simp

@[simp] theorem selWrite_pending (bank k v : Nat) : (selWrite s bank k v).pending = s.pending := rfl

@[simp] theorem boxWrite_pending (k off v : Nat) : (boxWrite s k off v).pending = s.pending := by
  unfold boxWrite
  split
  · rfl
  · split <;> simp

@[simp] theorem globalWrite_pending (bank off v : Nat) : (globalWrite s bank off v).pending = s.pending := by
  unfold globalWrite
  split <;> simp

@[simp] theorem collectorWrite_pending (off v : Nat) : (collectorWrite s off v).pending = s.pending := by
  unfold collectorWrite
  split <;> simp

@[simp] theorem write32_pending (bank off v : Nat) : (write32 s bank off v).pending = s.pending := by
  cases hsel : idxIn off 0x3000 8 7 <;> cases hunit : winUnit s bank (off / 0x1000 - 4) <;> simp [write32, hsel, hunit]

@[simp] theorem ringOp_pending (t v : Nat) : (ringOp s t v).pending = s.pending := by simp [ringOp]

@[simp] theorem write64_pending (bank off v : Nat) : (write64 s bank off v).pending = s.pending := by
  unfold write64
  split
  · rfl
  · split
    · simp
    · split
      · rfl
      · split <;> rfl

@[simp] theorem setHeld_pending (bank off v : Nat) : (setHeld s bank off v).pending = s.pending := rfl

@[simp] theorem writeLow_pending (bank off v : Nat) : (writeLow s bank off v).pending = s.pending := by
  unfold writeLow
  split <;> simp

@[simp] theorem writeHigh_pending (bank off v : Nat) : (writeHigh s bank off v).pending = s.pending := by
  unfold writeHigh
  split <;> simp

@[simp] theorem put4_pending (bank off v : Nat) : (put4 s bank off v).pending = s.pending := by simp [put4]

@[simp] theorem cdPair_pending (bank v : Nat) : (cdPair s bank v).pending = s.pending := by
  unfold cdPair
  split <;> simp

@[simp] theorem put8_pending (bank off v : Nat) : (put8 s bank off v).pending = s.pending := by simp [put8]
@[simp] theorem bar4Put_pending (bank o width v : Nat) : (bar4Put s bank o width v).pending = s.pending := by simp [bar4Put]
@[simp] theorem regPut_pending (bank off width v : Nat) : (regPut s bank off width v).pending = s.pending := by simp [regPut]
@[simp] theorem poisonRx_pending : (poisonRx s).pending = s.pending := rfl
@[simp] theorem regWrite_pending (bank off width v : Nat) : (regWrite s bank off width v).pending = s.pending := by simp [regWrite]
@[simp] theorem fwdReg_pending (f : Frame) : (fwdReg s f).pending = s.pending := by simp [fwdReg]

/-! ### The host port -/

@[simp] theorem pcieDown_pending : (pcieDown s).pending = s.pending := rfl

/-! ### Traverse ports -/

@[simp] theorem timeRequest_pending (p : Nat) : (timeRequest s p).pending = s.pending := by simp [timeRequest]
@[simp] theorem timeReply_pending (p : Nat) (f : Frame) : (timeReply s p f).pending = s.pending := rfl
@[simp] theorem timeMeasure_pending (p : Nat) (f : Frame) : (timeMeasure s p f).pending = s.pending := by simp [timeMeasure]
@[simp] theorem timeOp_pending (p : Nat) (f : Frame) : (timeOp s p f).pending = s.pending := by simp [timeOp]
@[simp] theorem startLanes_pending (p : Nat) : (startLanes s p).pending = s.pending := by simp [startLanes]
@[simp] theorem travUp_pending (p : Nat) : (travUp s p).pending = s.pending := by simp [travUp]
@[simp] theorem travLaneFail_pending (p lane : Nat) : (travLaneFail s p lane).pending = s.pending := by simp [travLaneFail]

/-! ### Power and bring-up -/

@[simp] theorem dropRails_pending : (dropRails s).pending = s.pending := by simp [dropRails]
@[simp] theorem supplyFail_pending (m : Nat) (mv : BitVec 16) : (supplyFail s m mv).pending = s.pending := by simp [supplyFail]
@[simp] theorem thermWarn_pending (src : BitVec 16) (t : Int) : (thermWarn s src t).pending = s.pending := by simp [thermWarn]
@[simp] theorem thermStep_pending (src : BitVec 16) (t : Int) : (thermStep s src t).pending = s.pending := by simp [thermStep]
@[simp] theorem thermTrip_pending (src : BitVec 16) (t : Int) : (thermTrip s src t).pending = s.pending := by simp [thermTrip]
@[simp] theorem thermalRead_pending (readings : List Int) : (thermalRead s readings).pending = s.pending := by simp [thermalRead]
@[simp] theorem bootPhase_pending (b : BringUpIn) : (bootPhase s b).pending = s.pending := rfl
@[simp] theorem readStraps_pending (b : BringUpIn) : (readStraps s b).pending = s.pending := rfl
@[simp] theorem startIt_pending (b : BringUpIn) : (startIt s b).pending = s.pending := by simp [startIt]
@[simp] theorem spareBank_pending (k : Nat) : (spareBank s k).pending = s.pending := by simp [spareBank]
@[simp] theorem startPcie_pending : (startPcie s).pending = s.pending := rfl
@[simp] theorem trainLinks_pending : (trainLinks s).pending = s.pending := by simp [trainLinks]

@[simp] theorem spareMarked_pending (failed : List Nat) : (spareMarked s failed).pending = s.pending :=
  pending_foldl (by simp) _ s

@[simp] theorem enterPreOp_pending : (enterPreOp s).pending = s.pending := by simp [enterPreOp]
@[simp] theorem finishActivation_pending : (finishActivation s).pending = s.pending := by simp [finishActivation]

@[simp] theorem bringUpRest_pending (b : BringUpIn) : (bringUpRest s b).pending = s.pending := by
  simp [bringUpRest, pending_foldl spareBank_pending]

@[simp] theorem bootConfig_pending : (bootConfig s).pending = s.pending := by simp [bootConfig]
@[simp] theorem initFatal_pending (b : BringUpIn) : (initFatal s b).pending = s.pending := by simp [initFatal]
@[simp] theorem enableRails_pending (ok : Bool) : (enableRails s ok).pending = s.pending := by simp [enableRails]

@[simp] theorem acceptAll_pending : (acceptAll s).pending = s.pending := by
  simp [acceptAll, pending_foldl fun s _ => acceptNext_pending s]

@[simp] theorem bringUp_pending (b : BringUpIn) : (bringUp s b).pending = s.pending := by simp [bringUp]

/-! ### Detection -/

@[simp] theorem detect_pending (m : FaultMsg) : (detect s m).pending = s.pending := by
  cases hcrag : logicalOf s.work (fld m.src 13 3) (fld m.src 0 8) <;> simp [detect, hcrag]

/-! ### Small ports -/

@[simp] theorem icmp6_pending (m : Icmp6) : (icmp6 s m).pending = s.pending := by
  unfold icmp6
  split <;> simp

@[simp] theorem jtagOut_pending (bits : List Bool) : (jtagOut s bits).pending = s.pending := by simp [jtagOut]
@[simp] theorem scanReg_pending (cap bits : List Bool) : (scanReg s cap bits).pending = s.pending := by simp [scanReg]
@[simp] theorem scanPins_pending (bits : List Bool) : (scanPins s bits).pending = s.pending := by simp [scanPins]

@[simp] theorem scanDr_pending (bits : List Bool) : (scanDr s bits).pending = s.pending := by
  unfold scanDr
  split <;> simp

@[simp] theorem jtagOp_pending (op : JtagOp) : (jtagOp s op).pending = s.pending := by
  unfold jtagOp
  split <;> simp

@[simp] theorem smbusOp_pending (rd : Bool) (data : List Byte) : (smbusOp s rd data).pending = s.pending := by simp [smbusOp]

end Queue

end Sys2Proof.Proofs
end

section
/-! Outcomes of commands, and the steps of an empty queue: no command touches the queue, so neither do those that have waited and are tried
again after a tick. -/

namespace Sys2Proof.Proofs
open Sys2Proof.Machine

/-! ## Outcomes -/

/-- Whatever state a command leads to from a state, the queue is that state's. -/
structure LeavesQueue (s : State) (r : Res) : Prop where
  pending_eq : ∀ t, r = .next t → t.pending = s.pending

section Outcomes
variable {s : State}

theorem leavesQueue_next {t : State} (h : t.pending = s.pending) : LeavesQueue s (.next t) := ⟨by
  rintro _ ⟨⟩
  exact h⟩

theorem leavesQueue_refused (r : Refusal) : LeavesQueue s (.refused r) := ⟨by rintro _ ⟨⟩⟩

theorem leavesQueue_ite {p : Prop} [Decidable p] {q r : Res} (hq : LeavesQueue s q) (hr : LeavesQueue s r) :
    LeavesQueue s (if p then q else r) := by
  split
  · exact hq
  · exact hr

theorem leavesQueue_onWork (f : Work → Work) : LeavesQueue s (onWork s f) := leavesQueue_next (withWork_pending s _)

theorem leavesQueue_onMem (cmd : Instr) (f : Work → Work) : LeavesQueue s (onMem cmd s f) := leavesQueue_next (withWork_pending s _)

theorem leavesQueue_onCrag (cmd : Instr) (c : Nat) (f : Work → Work) : LeavesQueue s (onCrag cmd c s f) :=
  leavesQueue_ite (leavesQueue_onMem cmd f) (leavesQueue_refused _)

theorem leavesQueue_onSummit (cmd : Instr) (n : Nat) (f : Work → Work) : LeavesQueue s (onSummit cmd n s f) :=
  leavesQueue_ite (leavesQueue_onMem cmd f) (leavesQueue_refused _)

theorem leavesQueue_onUnit {what : String} {count n : Nat} {f : State → State} (hf : ∀ s, (f s).pending = s.pending) :
    LeavesQueue s (onUnit what count n s f) := leavesQueue_ite (leavesQueue_next (hf s)) (leavesQueue_refused _)

/-- A command of one unit that acts on the data plane only. -/
theorem leavesQueue_onUnit_work {what : String} {count n : Nat} (f : State → Work) :
    LeavesQueue s (onUnit what count n s fun s => { s with work := f s }) := leavesQueue_onUnit fun s => withWork_pending s _

theorem leavesQueue_onTwin {cmd : Instr} {typ kind : Nat} {f : Frame} {act : Frame → State → State}
    (hact : ∀ f s, (act f s).pending = s.pending) : LeavesQueue s (onTwin cmd typ kind f s act) :=
  leavesQueue_next (onLink_pending s fun s => by simp [hact])

theorem leavesQueue_onFwd {cmd : Instr} {kind : Nat} {f : Frame} {act : Frame → State → State}
    (hact : ∀ f s, (act f s).pending = s.pending) : LeavesQueue s (onFwd cmd kind f s act) :=
  leavesQueue_onTwin fun f s => by simp [hact]

theorem leavesQueue_execReg (b : Bank) (off width v : Nat) : LeavesQueue s (execReg b off width v s) :=
  leavesQueue_next (by simp)

theorem leavesQueue_execFrame (cmd : Instr) (typ port : Nat) (f : Frame) (deliver : Work → Frame → Work) :
    LeavesQueue s (execFrame cmd typ port f s deliver) :=
  leavesQueue_ite (leavesQueue_onMem _ _) (leavesQueue_ite (leavesQueue_next (onLink_pending s fun s => withWork_pending s _))
    (leavesQueue_refused _))

end Outcomes

/-! ## Commands -/

/-- No command touches the queue: each acts on the data plane alone, or is made of operations that leave the queue. -/
theorem exec_leavesQueue (c : Instr) (s : State) : LeavesQueue s (exec c s) := by
  cases c <;> dsimp only [exec]
  case issueStore | tmaskStore | sumLoad | summitInstruction | windowLoadStore | summitFence | ebreak | summitLoadDone =>
    exact leavesQueue_onSummit ..
  case packetArrival | creditReturn | summaryContributionArrival | dispatch | summary | macroOpComplete | queueWaitEnd | streamRd
    | streamWr | streamReadReturn | pageRequestResponse | priTimeout | streamMcast | streamRegion | streamClose | qdeadlock | late
    | mma | sring | sringArg | gmergePack | gmergeUnpack | gmergePack24 | smmaA | smmaW | smmaAw | smmaPrune | vectorChainStart |
    vopFlags | gatherCsr | gatherCoo | gatherSeg | sampleU | sampleW | pool | poolPrefetch | eupdWrite | eupdAdd | eupdSgd |
    eupdAdagrad | eupdAdam | eupdMigrate | belayPost | belayWait | belaytmo | taskTake | taskPut | taskDone | bivouacEnter |
    markDigest | hostReadCompletion | completionTimeout | atsTranslationResponse => exact leavesQueue_onCrag ..
  case delayRelease | cacheRead | cacheWrite | atsInvalidation | travTimeout => exact leavesQueue_onMem ..
  case updateUnitApply | migrateClaimAck | migrateCopyAck | migrateSwitchAck | belayPostApply | cacheFillDone | cmoDone |
    sliceSweepDone | dramRead | rowRemapped | patrolScrub | retrainDone | tgDone | retrainDue => exact leavesQueue_onUnit_work _
  case cragReset | summitRun | summitHalt | summitReset | summitLoad | summitPartyWrite | registerWrite | belayPostRegister |
    belaySet | clean | invalidate | cleanInvalidate | zeroLine | wayenWrite | waypwrWrite | sliceEnable | sliceDisable | retrain |
    offline | online | ppr | mark | unmark | tgGo => exact leavesQueue_execReg ..
  case write | read | post | readResp | writeAck | postAck => exact leavesQueue_execFrame ..
  case taskGrant | ref1ppsEdge | ptpSync | ptpFollowUp | ptpDelayResp | ptpAnnounce | itSourceLost | itExpired | timePpsOut |
    energyMeasure | probationEnd | rstN | ropeLinkUp | copyDone | sentinelWatchdogMiss | por | thermalRead | tripHoldoffExpiry |
    bringUp | itRegisterLowRead | delayReqSend | icmpv6Message | jtagTapOperation | smbusTransaction | pmbusAlert | basecampReturn
    | ropeRetrainDone | leaseSend | vddCoreDip | sysclkLoss | step | itrefsecondsWrite | itsourceWrite | eventEntryWrite |
    tenancyEnable | tenancyDisable | tenancyReset | xlateInval | faultClearValid | faultClearFatal => exact leavesQueue_next (by simp)
  case emergencyRetrain | pprDone | eventFire | ropeLaneFail | selftestResultTimeout | cragSpared | railWarnEnd | supplyFail |
    selfTestComplete | travLinkUp => exact leavesQueue_onUnit fun s => by simp
  case lease | cfgTriple | cfgConfirmed | agree | stopTen | selftest | resetTen | ctrlDetach | digest | copy =>
    exact leavesQueue_onTwin fun f s => by simp
  case fwdHostRegister | fwdBar2 | fwdStreamData | fwdOdFragment | fwdTraverseRequest => exact leavesQueue_onFwd fun f s => by simp
  case markEpoch | ridgeLaneFail | dbRing => exact leavesQueue_ite (leavesQueue_next (by simp)) (leavesQueue_refused _)
  case travLaneFail => exact leavesQueue_ite (leavesQueue_onUnit fun s => by simp) (leavesQueue_refused _)
  case waySweepDone => exact leavesQueue_ite (leavesQueue_onUnit_work _) (leavesQueue_refused _)
  case mcastFetchStart => exact leavesQueue_ite (leavesQueue_onMem ..) (leavesQueue_refused _)
  case sysclkReturn | powerLimitRequest | fwTrialExpiry | perstDeassert | dipRecovery | pcieLinkUp | witnessWaitExpiry =>
    exact leavesQueue_ite (leavesQueue_next (by simp)) (leavesQueue_next (by simp))
  case bar2Read | bar2Write => exact leavesQueue_ite (leavesQueue_next rfl) (leavesQueue_onMem ..)
  case bar0LowHalfWrite => exact leavesQueue_ite (leavesQueue_execReg ..) (leavesQueue_next rfl)
  case commitDone | perstAssert =>
    exact leavesQueue_ite (leavesQueue_next (by simp)) (leavesQueue_ite (leavesQueue_next (by simp)) (leavesQueue_next (by simp)))
  case selectWrite => exact leavesQueue_ite (leavesQueue_execReg ..) (leavesQueue_ite (leavesQueue_next (by simp)) (leavesQueue_refused _))
  case acknowledgement who =>
    cases who with
    | op => exact leavesQueue_onCrag ..
    | summit => exact leavesQueue_onSummit ..
    | host => exact leavesQueue_onMem ..
    | basecamp => exact leavesQueue_next (withWork_pending s _)
  case faultMessage m => cases m <;> exact leavesQueue_next (by simp)
  case bankSpare =>
    exact leavesQueue_ite (leavesQueue_refused _) (leavesQueue_ite (leavesQueue_refused _) (leavesQueue_ite (leavesQueue_refused _)
      (leavesQueue_ite (leavesQueue_next rfl) (leavesQueue_next (by simp)))))
  case time => exact leavesQueue_onUnit fun s => onLink_pending s fun s => by simp
  case link =>
    refine leavesQueue_onUnit fun s => ?_
    rw [pending_ite, onLink_pending s fun s => withWork_pending s _]
    exact ite_self _
  case configurationRequest =>
    exact leavesQueue_ite (leavesQueue_next rfl) (leavesQueue_ite (leavesQueue_onWork _) (leavesQueue_ite (leavesQueue_onWork _)
      (leavesQueue_ite (leavesQueue_next rfl) (leavesQueue_onWork _))))
  case cfgDecision =>
    refine leavesQueue_onTwin fun f s => ?_
    split
    · rfl
    · split <;> simp
  case timeExchangeTimer => exact leavesQueue_next (pending_foldl timeRequest_pending _ s)
  case pcieLinkDown =>
    refine leavesQueue_next ?_
    rw [pending_ite, settleS_pending (pcieDown_pending s), ite_self]
  case mbGo =>
    unfold execMbGo
    split <;> exact leavesQueue_next (by simp)
  case mgmtDatagram =>
    refine leavesQueue_ite (leavesQueue_next rfl) (leavesQueue_ite (leavesQueue_next rfl) ?_)
    split <;> exact leavesQueue_next (by simp)
  case cfgTripleDue =>
    unfold execCfgTripleDue
    split
    · exact leavesQueue_next rfl
    · exact leavesQueue_ite (leavesQueue_next (by simp)) (leavesQueue_next rfl)
  case cfgDecisionDue =>
    unfold execCfgDecisionDue
    split
    · exact leavesQueue_next rfl
    · exact leavesQueue_ite (leavesQueue_next (by simp)) (leavesQueue_next rfl)
  case leaseTimeout =>
    refine leavesQueue_ite (leavesQueue_next rfl) ?_
    split <;> exact leavesQueue_next (by simp)
  case logRecordClose =>
    unfold execLogRecordClose
    split
    · exact leavesQueue_ite (leavesQueue_next (by simp)) (leavesQueue_next rfl)
    · exact leavesQueue_next rfl

/-! ## A step with an empty queue -/

theorem redo_pending (s : State) (x : Waiting) : (redo s x).pending = s.pending := by
  unfold redo
  split
  case h_1 t hnext =>
    have hqueue := (exec_leavesQueue x.cmd _).pending_eq t hnext
    exact hqueue
  case h_2 => rfl

@[simp] theorem redoAll_pending (s : State) : (redoAll s).pending = s.pending := pending_foldl redo_pending _ _

@[simp] theorem copyTick_pending (s : State) : (copyTick s).pending = s.pending := by simp [copyTick]

@[simp] theorem tick_pending (s : State) : (tick s).pending = s.pending := by simp [tick]

@[simp] theorem idle_pending (s : State) : (idle s).pending = s.pending := by simp [idle]

end Sys2Proof.Proofs
end

section
/-! The tick of a device at rest (R371): with no op, no queued task, no line that a maintenance operation has still to visit and no command
that waits, what follows the counts changes nothing but invalidations that complete. -/

namespace Sys2Proof.Proofs
open Sys2Proof.Machine

/-! ## The counts of a tick -/

/-- The tick's counts leave everything but the parts that count. -/
theorem tickWork_eq (w : Work) (cyc : Nat) : tickWork w cyc = { w with
    crags := Tab.mapV cragD (tickCrag w cyc) w.crags, summits := (tickWork w cyc).summits, chs := (tickWork w cyc).chs
    belays := (tickWork w cyc).belays, now := w.now + 1, tens := (tickWork w cyc).tens } := by
  have hfold : ∀ (l : List Nat) (v : Work), l.foldl (fun v t => setTen v t (tickTen w cyc t)) v =
      { v with tens := (l.foldl (fun v t => setTen v t (tickTen w cyc t)) v).tens } := by
    intro l
    induction l with
    | nil => intro v; rfl
    | cons t l ih => intro v; rw [List.foldl_cons, ih]; rfl
  unfold tickWork
  rw [hfold]

theorem mem_mapV {α : Type} [DecidableEq α] {d : Nat → α} {f : Nat → α → α} {t : Tab α} {e : Nat × α}
    (he : e ∈ Tab.mapV d f t) :
    ∃ x, (e.1, x) ∈ t ∧ e.2 = f e.1 x := by
  induction t with
  | nil => cases he
  | cons p t ih =>
    obtain ⟨j, v⟩ := p
    have hsplit : e = (j, f j v) ∨ e ∈ Tab.mapV d f t := by
      rw [Tab.mapV, Tab.cons] at he
      split at he
      · exact .inr he
      · simpa using he
    obtain rfl | htail := hsplit
    · exact ⟨v, by simp, rfl⟩
    · obtain ⟨x, hx, heq⟩ := ih htail
      exact ⟨x, by simp [hx], heq⟩

/-- No Crag gains an op in a tick's counts. -/
theorem tickWork_noOps {w : Work} (cyc : Nat) (hops : ∀ e ∈ w.crags, e.2.ops = []) :
    ∀ e ∈ (tickWork w cyc).crags, e.2.ops = [] := by
  intro e he
  rw [tickWork_eq] at he
  obtain ⟨x, hx, heq⟩ := mem_mapV he
  rw [heq]
  exact hops _ hx

/-! ## What goes on as soon as it can -/

theorem cmoPass_none {w : Work} {d : Nat} (hpend : (getSlice w d).cmoPend = []) : cmoPass w d = w := by rw [cmoPass, hpend]; rfl

theorem moveEntries_none {w : Work} (hready : w.sched.ready = []) (hdelay : w.sched.delay = []) : moveEntries w = w := by
  rw [moveEntries, hready, hdelay]; rfl

theorem unlessHeld_same {f : Work → Work} {w : Work} (hf : f w = w) : unlessHeld f w = w := by simp [unlessHeld, hf]

theorem retryPuts_noOps {w : Work} (hops : ∀ e ∈ w.crags, e.2.ops = []) : retryPuts w = w := by
  have hnone : (w.crags.flatMap fun e => (e.2.ops.filter fun o => o.stage = .waiting && (walks (opcOf o.pkt) || opcOf o.pkt = 0x85)).map
      fun o => (e.1, o.n)) = [] := List.flatMap_eq_nil_iff.mpr fun e he => by rw [hops e he]; rfl
  simp only [retryPuts, hnone, List.foldl_nil]

/-- Invalidations that complete are put out. -/
theorem invalDone_eq (w : Work) : invalDone w = { w with invals := (invalDone w).invals, out := (invalDone w).out } := by
  have hfold : ∀ (l : List Inval) (v : Work), l.foldl (fun w i => emit w (.atsInvalidated i.pasid i.page)) v =
      { v with out := (l.foldl (fun w i => emit w (.atsInvalidated i.pasid i.page)) v).out } := by
    intro l
    induction l with
    | nil => intro v; rfl
    | cons i l ih => intro v; rw [List.foldl_cons, ih]; rfl
  unfold invalDone
  dsimp only
  rw [hfold]

theorem upkeep_quiet {w : Work} (hpend : ∀ d, d < 4 → (getSlice w d).cmoPend = []) (hready : w.sched.ready = [])
    (hdelay : w.sched.delay = []) (hops : ∀ e ∈ w.crags, e.2.ops = []) : upkeep w = invalDone w := by
  have hslices : (List.range 4).foldl cmoPass w = w := by
    simp [List.range_succ, cmoPass_none, hpend]
  rw [upkeep, hslices, unlessHeld_same (moveEntries_none hready hdelay), retryPuts_noOps hops]

/-! ## The resilver copy (R496) -/

theorem sendCopy_eq (w : Work) (t a : Nat) (bs : List Byte) (poison : Nat) : sendCopy w t a bs poison =
    { w with ports := (sendCopy w t a bs poison).ports, out := (sendCopy w t a bs poison).out
             tens := (sendCopy w t a bs poison).tens, hold := (sendCopy w t a bs poison).hold } := by
  unfold sendCopy
  dsimp only
  split
  · rfl
  · split
    · unfold waitFor
      split <;> rfl
    · rw [transmit_eq _ _ _ (by simp [copyFrame, blankFrame])]
      rfl

/-- A block copied leaves IT, device memory and the commands that wait. -/
theorem copyTick_keeps (s : State) : (copyTick s).work.now = s.work.now ∧ (copyTick s).work.dram = s.work.dram ∧
    (copyTick s).work.waiting = s.work.waiting := by
  unfold copyTick
  dsimp only
  split
  · exact ⟨rfl, rfl, rfl⟩
  · split
    · split
      · exact ⟨rfl, rfl, rfl⟩
      · dsimp only
        rw [sendCopy_eq]
        exact ⟨rfl, rfl, rfl⟩
    · exact ⟨rfl, rfl, rfl⟩

/-- The tick of a device at rest. -/
theorem tick_quiet {s : State} (hsysclk : s.it.sysclk = true) (hready : s.work.sched.ready = []) (hdelay : s.work.sched.delay = [])
    (hops : ∀ e ∈ s.work.crags, e.2.ops = []) (hpend : ∀ d, d < 4 → (getSlice s.work d).cmoPend = []) :
    (tick s).work.now = s.work.now + 1 ∧ (tick s).work.dram = s.work.dram ∧ (tick s).work.waiting = s.work.waiting := by
  have hquiet : ∀ cyc, upkeep (tickWork s.work cyc) = invalDone (tickWork s.work cyc) := fun cyc => by
    refine upkeep_quiet ?_ ?_ ?_ (tickWork_noOps cyc hops) <;> rw [tickWork_eq]
    · exact hpend
    · exact hready
    · exact hdelay
  rw [tick, if_neg (by simp [hsysclk])]
  dsimp only
  obtain ⟨hnow, hdram, hwaiting⟩ := copyTick_keeps { s with
    work := upkeep (tickWork s.work (tickCycles s.work.now.toNat (clockRate s.pwr))), it := tickIt s.it
    pwr := tickPwr s.pwr (tickCycles s.work.now.toNat 8 - tickCycles s.work.now.toNat (clockRate s.pwr)) }
  rw [hnow, hdram, hwaiting, hquiet, invalDone_eq, tickWork_eq]
  exact ⟨rfl, rfl, rfl⟩

/-- Settles O2: no command touches the queue, those that have waited included, and the tick of a device at rest is its counts. -/
theorem idleStepCountsOneTick : Obligations.IdleStepCountsOneTick := by
  intro s hempty
  have hstep : step s = .next (idle s) := by rw [step, hempty]
  refine ⟨idle s, hstep, by rw [idle_pending, hempty], idle_stopped s, fun n => by rw [tickWork_eq], ?quiet⟩
  case quiet =>
    intro hsysclk hwaiting hready hdelay hops hpend
    obtain ⟨hnow, hdram, hwaits⟩ := tick_quiet hsysclk hready hdelay hops hpend
    rw [hwaiting] at hwaits
    rw [idle_tick s hsysclk hwaits]
    exact ⟨rfl, hnow, hdram, hwaits⟩

end Sys2Proof.Proofs
end
